-- ==== Sys2Proof/Word.lean ====
section
/-! DEFINITION. The word types of the TCCB: bytes, 32-bit words and byte strings (00_scope.md R7, R8). -/

namespace Sys2Proof

/-- R7: a byte is an unsigned 8-bit value. -/
abbrev Byte := BitVec 8

/-- R8: a word is an unsigned 32-bit value; `+`, `^^^`, `&&&`, `~~~` on it are the rule's operations. -/
abbrev Word := BitVec 32

/-- R7: a byte string, byte 0 first. -/
abbrev Bytes := List Byte

end Sys2Proof
end

