-- ==== Sys2Proof/Syntax.lean ====
section
/-! DEFINITION. The commands of the TCCB (30_encoding.md R91): one constructor per row of the opcode table. -/

namespace Sys2Proof

/-- R91: the thirteen commands.  A command word carries no operand (R90); DECRYPT alone carries a flag, its
version check `V` (R93). -/
inductive Instr where
  /-- `CREATE_KEY`, R241. -/
  | createKey
  /-- `DERIVE_PASSPHRASE_KEY`, R243. -/
  | derivePassphraseKey
  /-- `DERIVE_SUBKEYS`, R263. -/
  | deriveSubkeys
  /-- `WRAP_KEY`, R260. -/
  | wrapKey
  /-- `UNWRAP_KEY`, R261. -/
  | unwrapKey
  /-- `ENCRYPT`, R285. -/
  | encrypt
  /-- `DECRYPT` with its version-check flag `V`, R286. -/
  | decrypt (v : Bool)
  /-- `SHA256`, R128. -/
  | sha256
  /-- `BCRYPT`, R159. -/
  | bcrypt
  /-- `BLOCK_ENC`, R187. -/
  | blockEnc
  /-- `BLOCK_DEC`, R188. -/
  | blockDec
  /-- `HMAC`, R221. -/
  | hmac
  /-- `ZEROIZE`, R310. -/
  | zeroize
deriving DecidableEq, Repr

end Sys2Proof
end

