-- ==== Sys2Proof/Decode.lean ====
section
/-! DEFINITION. The decoder of command words and, after it, the encoder (30_encoding.md R90 to R93). -/

namespace Sys2Proof

/-- R92: why a command word is illegal.  The hardware reports one code, `ILLEGAL_CMD`, for all three. -/
inductive DecodeError where
  /-- `OPC` is not in the opcode map. -/
  | unassignedOpcode
  /-- A bit of 31:9 is 1. -/
  | reservedBits
  /-- `V = 1` on a command other than DECRYPT. -/
  | versionFlag
deriving DecidableEq, Repr

/-- R90: `OPC`, bits 7:0. -/
def opcField (w : Word) : Byte := w.extractLsb' 0 8

/-- R90: `V`, bit 8. -/
def vField (w : Word) : Bool := w.getLsbD 8

/-- R90: the reserved bits 31:9. -/
def reservedField (w : Word) : BitVec 23 := w.extractLsb' 9 23

/-- R91: the opcode map; the flag `v` is used by DECRYPT only. -/
def opcodeMap (opc : Byte) (v : Bool) : Option Instr :=
  match opc.toNat with
  | 0x01 => some .createKey
  | 0x02 => some .derivePassphraseKey
  | 0x03 => some .deriveSubkeys
  | 0x04 => some .wrapKey
  | 0x05 => some .unwrapKey
  | 0x06 => some .encrypt
  | 0x07 => some (.decrypt v)
  | 0x10 => some .sha256
  | 0x11 => some .bcrypt
  | 0x12 => some .blockEnc
  | 0x13 => some .blockDec
  | 0x14 => some .hmac
  | 0x20 => some .zeroize
  | _ => none

/-- R90 to R92: the command a word stands for, or the reason it is illegal.  Total on every word. -/
def decode (w : Word) : Except DecodeError Instr :=
  match opcodeMap (opcField w) (vField w) with
  | none => .error .unassignedOpcode
  | some i =>
    if reservedField w ≠ 0 then .error .reservedBits
    else if vField w = true ∧ opcField w ≠ 0x07#8 then .error .versionFlag
    else .ok i

/-- R91: the legal word of a command. -/
def encode : Instr → Word
  | .createKey => 0x00000001#32
  | .derivePassphraseKey => 0x00000002#32
  | .deriveSubkeys => 0x00000003#32
  | .wrapKey => 0x00000004#32
  | .unwrapKey => 0x00000005#32
  | .encrypt => 0x00000006#32
  | .decrypt v => if v then 0x00000107#32 else 0x00000007#32
  | .sha256 => 0x00000010#32
  | .bcrypt => 0x00000011#32
  | .blockEnc => 0x00000012#32
  | .blockDec => 0x00000013#32
  | .hmac => 0x00000014#32
  | .zeroize => 0x00000020#32

/-- The decoder on an instruction given as the opcode table numbers its bits: bit 0 is the least significant
bit of the command word, and every bit above `nbits` is 0.  A command word has 32 bits (R90), so more are
refused. -/
def decodeTableWord (nbits w : Nat) : Option Instr :=
  if nbits ≤ 32 then
    match decode (BitVec.ofNat 32 (w % 2 ^ nbits)) with
    | .ok i => some i
    | .error _ => none
  else none

end Sys2Proof
end

