-- ==== Sys2Proof/Machine/Bytes.lean ====
section
/-! DEFINITION. Byte strings and words (00_scope.md R7, R8): slices, xor, byte orders, cutting into blocks. -/

namespace Sys2Proof.Machine

/-- R7: `B[i..j)`, empty when `j <= i`. -/
def slice (b : Bytes) (i j : Nat) : Bytes := (b.drop i).take (j - i)

/-- R7: `A xor B` on strings of equal length. -/
def xorBytes (a b : Bytes) : Bytes := List.zipWith (· ^^^ ·) a b

/-- R7: `B xor v`, every byte of `B` xored with `v`. -/
def xorByte (b : Bytes) (v : Byte) : Bytes := b.map (· ^^^ v)

/-- R8: `BE32` of four bytes, the first the most significant. -/
def be32 (b0 b1 b2 b3 : Byte) : Word := b0 ++ b1 ++ b2 ++ b3

/-- R8: `BE32bytes(w)`. -/
def be32Bytes (w : Word) : Bytes :=
  [w.extractLsb' 24 8, w.extractLsb' 16 8, w.extractLsb' 8 8, w.extractLsb' 0 8]

/-- The `BE32` words of a string whose length is a multiple of 4. -/
def beWords : Bytes → List Word
  | b0 :: b1 :: b2 :: b3 :: rest => be32 b0 b1 b2 b3 :: beWords rest
  | _ => []

/-- R120: `BE64(n)`, the eight bytes of `n`, most significant first. -/
def be64Bytes (n : Nat) : Bytes := (List.range 8).map fun i => BitVec.ofNat 8 (n >>> (8 * (7 - i)))

/-- R8: `LE(B)` for a string of 1, 2 or 4 bytes, byte 0 in bits 7:0, zero-extended. -/
def leWord (b : Bytes) : Word := BitVec.ofNat 32 (b.foldr (fun x acc => x.toNat + 256 * acc) 0)

/-- R64: the low `n` bytes of a transferred value, bits 7:0 first. -/
def leBytes (n : Nat) (d : Word) : Bytes := (List.range n).map fun i => d.extractLsb' (8 * i) 8

/-- The first `count` consecutive blocks of `size` bytes of a string. -/
def blocksOf (size : Nat) : Nat → Bytes → List Bytes
  | 0, _ => []
  | count + 1, b => b.take size :: blocksOf size count (b.drop size)

/-- `f` applied `n` times. -/
def repeatN {α : Type} (f : α → α) : Nat → α → α
  | 0, x => x
  | n + 1, x => repeatN f n (f x)

/-- A row of `n` 32-bit table words written as one numeral, the first word the most significant. -/
def tableRow (n row : Nat) : List Word :=
  (List.range n).map fun i => BitVec.ofNat 32 (row >>> (32 * (n - 1 - i)))

/-- A row of 16 table bytes written as one numeral, the first byte the most significant. -/
def byteRow (row : Nat) : Bytes := (List.range 16).map fun i => BitVec.ofNat 8 (row >>> (8 * (15 - i)))

end Sys2Proof.Machine
end

