-- ==== Sys2Proof/Config.lean ====
section
/-! DEFINITION. The parameters of the TCCB (00_scope.md R6) and its constant registers. -/

namespace Sys2Proof.Config

/-- R6: the size of the data buffer in bytes. -/
def dbufSize : Nat := 4096

/-- R6: the size of the bus window in bytes. -/
def windowSize : Nat := 8192

/-- R6: `KEY_LEN`, bytes of a Key. -/
def keyLen : Nat := 16

/-- R6: `BLOCK_LEN`, bytes of a cipher block. -/
def blockLen : Nat := 16

/-- R6: `SUBKEYS_LEN`, bytes of a SubKeys operand. -/
def subkeysLen : Nat := 32

/-- R6: `IV_LEN`, bytes of an initialisation vector. -/
def ivLen : Nat := 16

/-- R6: `MAC_LEN`, bytes of an HMAC tag. -/
def macLen : Nat := 32

/-- R6: `VERSION_CONST`, the version byte ENCRYPT writes. -/
def versionConst : Byte := 0x01#8

/-- R6: `WRAP_XOR`, the constant every byte of a child key is xored with. -/
def wrapXor : Byte := 0x88#8

/-- R6: `BCRYPT_COST`; the expensive setup loops `2^8` times. -/
def bcryptCost : Nat := 8

/-- R6: `BCRYPT_OUT_LEN`, bytes of the stretch function's output. -/
def bcryptOutLen : Nat := 24

/-- R6: `SALT_LEN`, bytes of a salt. -/
def saltLen : Nat := 16

/-- R6: `BCRYPT_KEY_MAX`, the longest key the BCRYPT command takes. -/
def bcryptKeyMax : Nat := 72

/-- R6: `DEC_MIN_LEN`, the shortest container DECRYPT's format check admits. -/
def decMinLen : Nat := 33

/-- R23: the constant value of `ID` ("TC", hardware revision 1). -/
def idValue : Word := 0x54430001#32

/-- R24: the constant value of `CAP`: `DBUF_SIZE` in bits 15:0, `BCRYPT_COST` in bits 23:16. -/
def capValue : Word := 0x00081000#32

/-- R6, D32: which 8192-byte slot of the bus address space the platform gives the window.  The spec leaves
it open, so it has no value here (log entry 10). -/
opaque baseIndex : Nat

/-- R6: `BASE`, the bus address of offset 0, a multiple of 8192. -/
def base : Nat := windowSize * baseIndex

end Sys2Proof.Config
end

