-- ==== Sys2Proof/Machine/State.lean ====
section
/-! DEFINITION. The state of the TCCB (10_state.md R20), the inputs that reach it, and the ways a step can stop. -/

namespace Sys2Proof.Machine

/-- R34: what the command engine is doing. -/
inductive Phase where
  /-- `IDLE`: no command. -/
  | idle
  /-- `EXEC`: a command issued and not yet completed, not waiting. -/
  | exec
  /-- `WAIT_ENT`: a CREATE_KEY or ENCRYPT command waiting for the entropy source. -/
  | waitEnt
deriving DecidableEq, Repr

/-- R322: the completion codes the TCCB produces.  Codes 7 to 15 are never produced and have no constructor. -/
inductive Code where
  /-- 0: the command completed and wrote its output. -/
  | ok
  /-- 1: illegal command word. -/
  | illegalCmd
  /-- 2: a used source region outside `DBUF`, or the destination too small or outside `DBUF`. -/
  | range
  /-- 3: a key, SubKeys or block operand of the wrong length. -/
  | inputLength
  /-- 4: a salt that is not 16 bytes. -/
  | invalidSalt
  /-- 5: the entropy source answered `Unavailable`. -/
  | entropyUnavailable
  /-- 6: any other failure of DECRYPT. -/
  | decryptFail
deriving DecidableEq, Repr

/-- R29: the six operand registers. -/
structure OperandRegs where
  /-- `SRC0_ADDR`, offset 0x014 -/
  src0Addr : Word
  /-- `SRC0_LEN`, offset 0x018 -/
  src0Len : Word
  /-- `SRC1_ADDR`, offset 0x01C -/
  src1Addr : Word
  /-- `SRC1_LEN`, offset 0x020 -/
  src1Len : Word
  /-- `DST_ADDR`, offset 0x024 -/
  dstAddr : Word
  /-- `DST_CAP`, offset 0x028 -/
  dstCap : Word
deriving DecidableEq, Repr

/-- R28, R34: the snapshot `Lt`, the command word and the operand registers as they stood at issue. -/
structure Snapshot where
  /-- the command word -/
  cmd : Word
  /-- the operand register values -/
  ops : OperandRegs
deriving DecidableEq, Repr

/-- R60: the contents of `DBUF`, as cells (address, byte) in canonical form; see `Memory.wf`. -/
abbrev Memory := List Host.Cell

/-- R240: an answer of the entropy source.  `data` is `ent_data[127:0]` (item 5). -/
inductive EntropyAnswer where
  /-- `Ok(E)`, with `E[i] = data[8i+7:8i]`. -/
  | ok (data : BitVec 128)
  /-- `Unavailable`. -/
  | unavailable
deriving DecidableEq, Repr

/-- R61: an offset into the 8192-byte bus window. -/
abbrev Offset := BitVec 13

/-- R62: the size of a bus transaction. -/
inductive BusSize where
  /-- 1 byte -/
  | one
  /-- 2 bytes -/
  | two
  /-- 4 bytes -/
  | four
deriving DecidableEq, Repr

/-- R62: the response to a bus transaction. -/
inductive Resp where
  /-- `OKAY` -/
  | okay
  /-- `ERROR` -/
  | error
deriving DecidableEq, Repr

/-- R62: what the TCCB answers to a transaction; `data` is zero-extended, and 0 for a write or an error. -/
structure BusAnswer where
  /-- the response -/
  resp : Resp
  /-- the data of a read -/
  data : Word
deriving DecidableEq, Repr

/-- What the outside world does next (log entry 1): the agents of the block, one event each. -/
inductive Event where
  /-- R62: `BusRead(off, n)`. -/
  | busRead (off : Offset) (n : BusSize)
  /-- R62: `BusWrite(off, n, d)`; the low `8n` bits of `d` are the transferred value (log entry 9). -/
  | busWrite (off : Offset) (n : BusSize) (d : Word)
  /-- R373: the command engine steps. -/
  | engine
  /-- R240, R371: the entropy source answers. -/
  | entropy (a : EntropyAnswer)
  /-- R360: reset. -/
  | reset
deriving DecidableEq, Repr

/-- R20: the state of the TCCB; the last two fields are the model's own. -/
structure State where
  /-- R25: `CTRL.IE`, the one stored bit of `CTRL` -/
  ie : Bool
  /-- R26: `STATUS.DONE` -/
  done : Bool
  /-- R26: `STATUS.WERR` -/
  werr : Bool
  /-- R26, R322: `STATUS.ERR` -/
  err : Code
  /-- R28: `CMD`, the last command word issued -/
  cmd : Word
  /-- R29: the operand registers -/
  ops : OperandRegs
  /-- R31: `OUT_LEN` -/
  outLen : Word
  /-- R60: `DBUF` -/
  dbuf : Memory
  /-- R34: the engine's phase; `STATUS.BUSY` and `STATUS.ENTW` are views of it (R26) -/
  phase : Phase
  /-- R34: the snapshot `Lt` -/
  lt : Snapshot
  /-- R240 item 5: the answer on the entropy inputs, `none` while `ent_ack = 0` (log entry 4) -/
  ent : Option EntropyAnswer
  /-- the answer to the last bus transaction; the model's own field (log entry 3) -/
  resp : Option BusAnswer
  /-- the events still to come, oldest first; the model's own field (log entry 1) -/
  env : List Event
deriving DecidableEq, Repr

/-- Why the machine stops. -/
inductive Fault where
  /-- Raised by MemRead and MemWrite (Ops.lean) on a region that leaves `DBUF`, whose addresses R60 gives.  R67 says
  the range checks keep every command from it, so no step raises it.  Safe: the machine stops. -/
  | outsideDbuf (addr len : Nat)
deriving DecidableEq, Repr

/-- Why an instruction is refused. -/
inductive Refusal where
  /-- Raised by an arm of `exec` that has no meaning yet; none is left.  Safe: the machine stops. -/
  | notModelled (mnemonic : String)
deriving DecidableEq, Repr

/-- The six operand registers at zero (R37). -/
def OperandRegs.zero : OperandRegs :=
  { src0Addr := 0, src0Len := 0, src1Addr := 0, src1Len := 0, dstAddr := 0, dstCap := 0 }

/-- R37: the machine right after reset.  `lt` has no value there and is given zeros (log entry 7); `resp` and
`env` are the model's own (log entries 1, 3 and 20). -/
def State.reset : State :=
  { ie := false, done := false, werr := false, err := .ok, cmd := 0, ops := .zero, outLen := 0, dbuf := [],
    phase := .idle, lt := { cmd := 0, ops := .zero }, ent := none, resp := none, env := [] }

end Sys2Proof.Machine
end

