-- ==== Sys2Proof/Machine/Flags.lean ====
section
/-! DEFINITION. The flags and status of the TCCB: the `STATUS` and `CTRL` words and the output signals, as views of
the state (10_state.md R25, R26, R33, R38; 60_exceptions.md R322). -/

namespace Sys2Proof.Machine

/-- R322: the number of a completion code. -/
def codeNumber : Code → BitVec 4
  | .ok => 0#4
  | .illegalCmd => 1#4
  | .range => 2#4
  | .inputLength => 3#4
  | .invalidSalt => 4#4
  | .entropyUnavailable => 5#4
  | .decryptFail => 6#4

/-- R26: `STATUS.BUSY`, 1 exactly when `phase != IDLE`. -/
def busy (s : State) : Bool :=
  match s.phase with
  | .idle => false
  | .exec => true
  | .waitEnt => true

/-- R26: `STATUS.ENTW`, 1 exactly when `phase = WAIT_ENT`. -/
def entw (s : State) : Bool :=
  match s.phase with
  | .idle => false
  | .exec => false
  | .waitEnt => true

/-- R26: the `STATUS` register; its reserved bits 7:4 and 31:12 read as zero (R33). -/
def statusWord (s : State) : Word :=
  0#20 ++ codeNumber s.err ++ 0#4 ++ BitVec.ofBool (entw s) ++ BitVec.ofBool s.werr
    ++ BitVec.ofBool s.done ++ BitVec.ofBool (busy s)

/-- R25: the `CTRL` register; its reserved bits 31:1 read as zero (R33). -/
def ctrlWord (s : State) : Word := 0#31 ++ BitVec.ofBool s.ie

/-- R38: the interrupt output. -/
def irq (s : State) : Bool := s.ie && s.done

/-- R240 item 5: the output `ent_req`, held at 1 while the phase is `WAIT_ENT`. -/
def entReq (s : State) : Bool := entw s

end Sys2Proof.Machine
end

