-- ==== Sys2Proof/Machine/Ops.lean ====
section
/-! DEFINITION. The named operations: the data buffer (20_memory.md R60, R67), issue (10_state.md R28), completion and
its acknowledgement (60_exceptions.md R324, R325), the entropy request (44_key_derivation.md R240). -/

namespace Sys2Proof.Machine

/-- What one step answers. -/
abbrev Out := Host.Outcome State Fault Refusal

/-- Why a command's pseudocode ends before its `Commit`. -/
inductive Stop where
  /-- `raise Fail(CODE)` (R324). -/
  | fail (c : Code)
  /-- The command waits for the entropy source (R240). -/
  | waitEntropy
  /-- An access outside `DBUF`, which R67 rules out. -/
  | fault (f : Fault)
deriving DecidableEq, Repr

/-- R37: what a byte of `DBUF` reads as when no cell lists it, its value after reset. -/
def Memory.unlisted : Byte := 0x00#8

/-- `DBUF[x]`. -/
def Memory.readByte : Memory → Nat → Byte
  | [], _ => Memory.unlisted
  | (a, v) :: m, x => if a = x then v else Memory.readByte m x

/-- `DBUF[x] <- v`, keeping the canonical form: writing `Memory.unlisted` removes the cell. -/
def Memory.writeByte : Memory → Nat → Byte → Memory
  | [], x, v => if v = Memory.unlisted then [] else [(x, v)]
  | (a, w) :: m, x, v =>
    if x < a then (if v = Memory.unlisted then (a, w) :: m else (x, v) :: (a, w) :: m)
    else if x = a then (if v = Memory.unlisted then m else (x, v) :: m)
    else (a, w) :: Memory.writeByte m x v

/-- `DBUF[a..a+n)`. -/
def Memory.readBytes (m : Memory) : Nat → Nat → Bytes
  | _, 0 => []
  | a, n + 1 => Memory.readByte m a :: Memory.readBytes m (a + 1) n

/-- `DBUF[a+i] <- v[i]` for every `i`. -/
def Memory.writeBytes : Memory → Nat → Bytes → Memory
  | m, _, [] => m
  | m, a, b :: bs => Memory.writeBytes (Memory.writeByte m a b) (a + 1) bs

/-- R310: every byte `0x00`. -/
def Memory.cleared : Memory := []

/-- The canonical form: addresses strictly rising, inside `DBUF`, no cell equal to what an unlisted byte reads. -/
abbrev Memory.wf (m : Memory) : Prop :=
  m.Pairwise (fun c d => c.1 < d.1) ∧ ∀ c ∈ m, c.1 < Config.dbufSize ∧ c.2 ≠ Memory.unlisted

/-- R9, R67: `MemRead(a, n)`, which needs `a + n <= DBUF_SIZE`. -/
def memRead (s : State) (a n : Nat) : Except Stop Bytes :=
  if a + n ≤ Config.dbufSize then .ok (Memory.readBytes s.dbuf a n)
  else .error (.fault (.outsideDbuf a n))

/-- R9, R67: `MemWrite(a, len(v), v)`, which needs `a + len(v) <= DBUF_SIZE`. -/
def memWrite (s : State) (a : Nat) (v : Bytes) : Except Stop State :=
  if a + v.length ≤ Config.dbufSize then .ok { s with dbuf := Memory.writeBytes s.dbuf a v }
  else .error (.fault (.outsideDbuf a v.length))

/-- R28: the issue of command word `w`, the write of `CMD` while idle. -/
def issue (s : State) (w : Word) : State :=
  { s with cmd := w, done := false, err := .ok, outLen := 0, lt := { cmd := w, ops := s.ops }, phase := .exec }

/-- R324: `Complete(code)`.  The entropy answer, if one was used, is gone from the inputs (R240: one request). -/
def complete (s : State) (c : Code) : State :=
  { s with err := c, done := true, phase := .idle, ent := none }

/-- R324: `raise Fail(code)`; `DBUF` is unchanged. -/
def failCmd (s : State) (c : Code) : State := complete { s with outLen := 0 } c

/-- R324: `Commit(a, out)`. -/
def commit (s : State) (a : Nat) (out : Bytes) : Out :=
  match memWrite s a out with
  | .ok s' => .next (complete { s' with outLen := BitVec.ofNat 32 out.length } .ok)
  | .error (.fail c) => .next (failCmd s c)
  | .error .waitEntropy => .next s
  | .error (.fault f) => .fault f

/-- R27, R325: the write of `w` to `STATUS`, which acknowledges a completion. -/
def acknowledge (s : State) (w : Word) : State :=
  { s with done := s.done && !w.getLsbD 1, werr := s.werr && !w.getLsbD 2 }

/-- R30, R66: a write dropped because `BUSY = 1`. -/
def dropWrite (s : State) : State := { s with werr := true }

/-- R240: `phase <- WAIT_ENT`, one request outstanding, no answer yet. -/
def requestEntropy (s : State) : State := { s with phase := .waitEnt, ent := none }

/-- R240 item 5: the 16 bytes of an `Ok` answer, `E[i] = ent_data[8i+7:8i]`. -/
def entropyBytes (data : BitVec 128) : Bytes := (List.range 16).map fun i => data.extractLsb' (8 * i) 8

/-- R240: `GetEntropy16()` with the failure its callers raise (R241, R285): the answer once the source has given
one, else the command waits. -/
def getEntropy16 (s : State) : Except Stop Bytes :=
  match s.phase, s.ent with
  | .waitEnt, some (.ok data) => .ok (entropyBytes data)
  | .waitEnt, some .unavailable => .error (.fail .entropyUnavailable)
  | .waitEnt, none => .error .waitEntropy
  | .exec, _ => .error .waitEntropy
  | .idle, _ => .error .waitEntropy

end Sys2Proof.Machine
end

