-- ==== Sys2Proof/Machine/Bus.lean ====
section
/-! DEFINITION. The bus transactions (20_memory.md R60 to R66; 10_state.md R22 to R33; 60_exceptions.md R321). -/

namespace Sys2Proof.Machine

/-- R22: the twelve registers. -/
inductive Reg where
  | id
  | cap
  | ctrl
  | status
  | cmd
  | src0Addr
  | src0Len
  | src1Addr
  | src1Len
  | dstAddr
  | dstCap
  | outLen
deriving DecidableEq, Repr

/-- R22: the register at a byte offset of the register window; `none` at the reserved offsets of R32. -/
def regAt (off : Nat) : Option Reg :=
  match off with
  | 0x000 => some .id
  | 0x004 => some .cap
  | 0x008 => some .ctrl
  | 0x00C => some .status
  | 0x010 => some .cmd
  | 0x014 => some .src0Addr
  | 0x018 => some .src0Len
  | 0x01C => some .src1Addr
  | 0x020 => some .src1Len
  | 0x024 => some .dstAddr
  | 0x028 => some .dstCap
  | 0x02C => some .outLen
  | _ => none

/-- R23 to R31: the value a register reads as, busy or not (R30). -/
def regRead (s : State) (r : Reg) : Word :=
  match r with
  | .id => Config.idValue
  | .cap => Config.capValue
  | .ctrl => ctrlWord s
  | .status => statusWord s
  | .cmd => s.cmd
  | .src0Addr => s.ops.src0Addr
  | .src0Len => s.ops.src0Len
  | .src1Addr => s.ops.src1Addr
  | .src1Len => s.ops.src1Len
  | .dstAddr => s.ops.dstAddr
  | .dstCap => s.ops.dstCap
  | .outLen => s.outLen

/-- R29, R30: a write of the operand registers, dropped while busy. -/
def operandWrite (s : State) (ops : OperandRegs) : State :=
  if busy s then dropWrite s else { s with ops := ops }

/-- R23 to R31: the write of `w` to a register. -/
def regWrite (s : State) (r : Reg) (w : Word) : State :=
  match r with
  | .id => s
  | .cap => s
  | .ctrl => { s with ie := w.getLsbD 0 }
  | .status => acknowledge s w
  | .cmd => if busy s then dropWrite s else issue s w
  | .src0Addr => operandWrite s { s.ops with src0Addr := w }
  | .src0Len => operandWrite s { s.ops with src0Len := w }
  | .src1Addr => operandWrite s { s.ops with src1Addr := w }
  | .src1Len => operandWrite s { s.ops with src1Len := w }
  | .dstAddr => operandWrite s { s.ops with dstAddr := w }
  | .dstCap => operandWrite s { s.ops with dstCap := w }
  | .outLen => s

/-- R62: the number of bytes of a transaction. -/
def sizeBytes : BusSize → Nat
  | .one => 1
  | .two => 2
  | .four => 4

/-- R61: the offset at which the window shows `DBUF[0]`. -/
def dbufOffset : Nat := 0x1000

/-- R61, R63, R64: is the transaction accepted, or answered with `ERROR`? -/
def accepted (off : Offset) (n : BusSize) : Bool :=
  if off.toNat < dbufOffset then n = .four && off.toNat % 4 = 0 else off.toNat % sizeBytes n = 0

/-- R32, R63, R64, R66: the data an accepted read returns. -/
def readData (s : State) (off : Offset) (n : BusSize) : Word :=
  if off.toNat < dbufOffset then
    match regAt off.toNat with
    | some r => regRead s r
    | none => 0
  else if busy s then 0
  else leWord (Memory.readBytes s.dbuf (off.toNat - dbufOffset) (sizeBytes n))

/-- R32, R63, R64, R66: the effect of an accepted write. -/
def writeEffect (s : State) (off : Offset) (n : BusSize) (d : Word) : State :=
  if off.toNat < dbufOffset then
    match regAt off.toNat with
    | some r => regWrite s r d
    | none => s
  else if busy s then dropWrite s
  else { s with dbuf := Memory.writeBytes s.dbuf (off.toNat - dbufOffset) (leBytes (sizeBytes n) d) }

/-- R62: the answer to `BusRead(off, n)`. -/
def readAnswer (s : State) (off : Offset) (n : BusSize) : BusAnswer :=
  if accepted off n then { resp := .okay, data := readData s off n } else { resp := .error, data := 0 }

/-- R62: `BusRead(off, n)`; no read has a side effect (R69) but its answer. -/
def busRead (s : State) (off : Offset) (n : BusSize) : State :=
  { s with resp := some (readAnswer s off n) }

/-- R62: `BusWrite(off, n, d)`; a refused one has no effect but its answer. -/
def busWrite (s : State) (off : Offset) (n : BusSize) (d : Word) : State :=
  if accepted off n then { writeEffect s off n d with resp := some { resp := .okay, data := 0 } }
  else { s with resp := some { resp := .error, data := 0 } }

/-- R60: the bus address of an offset of the window. -/
def busAddress (off : Offset) : Nat := Config.base + off.toNat

/-- R60, R61: the offset a bus address selects; `none` for an address outside the window, whose transactions do not
reach the TCCB (log entry 10). -/
def windowOffset (addr : Nat) : Option Offset :=
  if Config.base ≤ addr ∧ addr < Config.base + Config.windowSize then some (BitVec.ofNat 13 (addr - Config.base))
  else none

end Sys2Proof.Machine
end

