-- ==== Sys2Proof/Machine/Aes.lean ====
section
/-! DEFINITION. The block-cipher core, AES-128 (42_block_cipher.md R180 to R186).  A state is the 16-byte string
of R180: row `r`, column `c` stands at byte `r + 4c`. -/

namespace Sys2Proof.Machine

/-- R181: `xtime`. -/
def xtime (b : Byte) : Byte := (b <<< 1) ^^^ (if b.getLsbD 7 then 0x1b#8 else 0x00#8)

/-- R181: the product `a . b` in GF(2^8), the xor of `xtime^i(a)` over the bits `i` set in `b`. -/
def gfMul (a b : Byte) : Byte :=
  (List.range 8).foldl (fun acc i => if b.getLsbD i then acc ^^^ repeatN xtime i a else acc) 0x00#8

/-- R182: the table of `Sbox`, one numeral a row. -/
def sboxTable : Bytes :=
  byteRow 0x63_7c_77_7b_f2_6b_6f_c5_30_01_67_2b_fe_d7_ab_76
    ++ byteRow 0xca_82_c9_7d_fa_59_47_f0_ad_d4_a2_af_9c_a4_72_c0
    ++ byteRow 0xb7_fd_93_26_36_3f_f7_cc_34_a5_e5_f1_71_d8_31_15
    ++ byteRow 0x04_c7_23_c3_18_96_05_9a_07_12_80_e2_eb_27_b2_75
    ++ byteRow 0x09_83_2c_1a_1b_6e_5a_a0_52_3b_d6_b3_29_e3_2f_84
    ++ byteRow 0x53_d1_00_ed_20_fc_b1_5b_6a_cb_be_39_4a_4c_58_cf
    ++ byteRow 0xd0_ef_aa_fb_43_4d_33_85_45_f9_02_7f_50_3c_9f_a8
    ++ byteRow 0x51_a3_40_8f_92_9d_38_f5_bc_b6_da_21_10_ff_f3_d2
    ++ byteRow 0xcd_0c_13_ec_5f_97_44_17_c4_a7_7e_3d_64_5d_19_73
    ++ byteRow 0x60_81_4f_dc_22_2a_90_88_46_ee_b8_14_de_5e_0b_db
    ++ byteRow 0xe0_32_3a_0a_49_06_24_5c_c2_d3_ac_62_91_95_e4_79
    ++ byteRow 0xe7_c8_37_6d_8d_d5_4e_a9_6c_56_f4_ea_65_7a_ae_08
    ++ byteRow 0xba_78_25_2e_1c_a6_b4_c6_e8_dd_74_1f_4b_bd_8b_8a
    ++ byteRow 0x70_3e_b5_66_48_03_f6_0e_61_35_57_b9_86_c1_1d_9e
    ++ byteRow 0xe1_f8_98_11_69_d9_8e_94_9b_1e_87_e9_ce_55_28_df
    ++ byteRow 0x8c_a1_89_0d_bf_e6_42_68_41_99_2d_0f_b0_54_bb_16

/-- R182: the table of `InvSbox`, one numeral a row. -/
def invSboxTable : Bytes :=
  byteRow 0x52_09_6a_d5_30_36_a5_38_bf_40_a3_9e_81_f3_d7_fb
    ++ byteRow 0x7c_e3_39_82_9b_2f_ff_87_34_8e_43_44_c4_de_e9_cb
    ++ byteRow 0x54_7b_94_32_a6_c2_23_3d_ee_4c_95_0b_42_fa_c3_4e
    ++ byteRow 0x08_2e_a1_66_28_d9_24_b2_76_5b_a2_49_6d_8b_d1_25
    ++ byteRow 0x72_f8_f6_64_86_68_98_16_d4_a4_5c_cc_5d_65_b6_92
    ++ byteRow 0x6c_70_48_50_fd_ed_b9_da_5e_15_46_57_a7_8d_9d_84
    ++ byteRow 0x90_d8_ab_00_8c_bc_d3_0a_f7_e4_58_05_b8_b3_45_06
    ++ byteRow 0xd0_2c_1e_8f_ca_3f_0f_02_c1_af_bd_03_01_13_8a_6b
    ++ byteRow 0x3a_91_11_41_4f_67_dc_ea_97_f2_cf_ce_f0_b4_e6_73
    ++ byteRow 0x96_ac_74_22_e7_ad_35_85_e2_f9_37_e8_1c_75_df_6e
    ++ byteRow 0x47_f1_1a_71_1d_29_c5_89_6f_b7_62_0e_aa_18_be_1b
    ++ byteRow 0xfc_56_3e_4b_c6_d2_79_20_9a_db_c0_fe_78_cd_5a_f4
    ++ byteRow 0x1f_dd_a8_33_88_07_c7_31_b1_12_10_59_27_80_ec_5f
    ++ byteRow 0x60_51_7f_a9_19_b5_4a_0d_2d_e5_7a_9f_93_c9_9c_ef
    ++ byteRow 0xa0_e0_3b_4d_ae_2a_f5_b0_c8_eb_bb_3c_83_53_99_61
    ++ byteRow 0x17_2b_04_7e_ba_77_d6_26_e1_69_14_63_55_21_0c_7d

/-- R182: `Sbox(b)`. -/
def sbox (b : Byte) : Byte := sboxTable.getD b.toNat 0

/-- R182: `InvSbox(b)`. -/
def invSbox (b : Byte) : Byte := invSboxTable.getD b.toNat 0

/-- R183: `Rcon[1..10]` (place 0 is not used). -/
def rcon : Bytes :=
  [0x00#8, 0x01#8, 0x02#8, 0x04#8, 0x08#8, 0x10#8, 0x20#8, 0x40#8, 0x80#8, 0x1b#8, 0x36#8]

/-- R183: RotWord. -/
def rotWord (t : Bytes) : Bytes := t.drop 1 ++ t.take 1

/-- R183: the word `t` that is xored into `w[i-4]` to make `w[i]`, from `w[i-1]`. -/
def keyTemp (i : Nat) (t : Bytes) : Bytes :=
  if i % 4 = 0 then xorBytes ((rotWord t).map sbox) [rcon.getD (i / 4) 0, 0x00#8, 0x00#8, 0x00#8] else t

/-- R183: `n` more key words after `w[0..i)`. -/
def keyExtend : Nat → List Bytes → List Bytes
  | 0, w => w
  | n + 1, w =>
    keyExtend n (w ++ [xorBytes (w.getD (w.length - 4) []) (keyTemp w.length (w.getD (w.length - 1) []))])

/-- R183: the 44 four-byte key words `w[0..44)`. -/
def keyWords (k : Bytes) : List Bytes := keyExtend 40 (blocksOf 4 4 k)

/-- R183: `RoundKey[n]`. -/
def roundKey (w : List Bytes) (n : Nat) : Bytes :=
  w.getD (4 * n) [] ++ w.getD (4 * n + 1) [] ++ w.getD (4 * n + 2) [] ++ w.getD (4 * n + 3) []

/-- R184: SubBytes. -/
def subBytes (st : Bytes) : Bytes := st.map sbox

/-- R184: InvSubBytes. -/
def invSubBytes (st : Bytes) : Bytes := st.map invSbox

/-- R184: ShiftRows, `st'[r][c] = st[r][(c + r) mod 4]`. -/
def shiftRows (st : Bytes) : Bytes :=
  (List.range 16).map fun i => st.getD (i % 4 + 4 * ((i / 4 + i % 4) % 4)) 0

/-- R184: InvShiftRows, `st'[r][c] = st[r][(c - r) mod 4]`. -/
def invShiftRows (st : Bytes) : Bytes :=
  (List.range 16).map fun i => st.getD (i % 4 + 4 * ((i / 4 + 4 - i % 4) % 4)) 0

/-- R184: MixColumns on one column. -/
def mixColumn (a0 a1 a2 a3 : Byte) : Bytes :=
  [gfMul 2 a0 ^^^ gfMul 3 a1 ^^^ a2 ^^^ a3,
   a0 ^^^ gfMul 2 a1 ^^^ gfMul 3 a2 ^^^ a3,
   a0 ^^^ a1 ^^^ gfMul 2 a2 ^^^ gfMul 3 a3,
   gfMul 3 a0 ^^^ a1 ^^^ a2 ^^^ gfMul 2 a3]

/-- R184: InvMixColumns on one column. -/
def invMixColumn (a0 a1 a2 a3 : Byte) : Bytes :=
  [gfMul 14 a0 ^^^ gfMul 11 a1 ^^^ gfMul 13 a2 ^^^ gfMul 9 a3,
   gfMul 9 a0 ^^^ gfMul 14 a1 ^^^ gfMul 11 a2 ^^^ gfMul 13 a3,
   gfMul 13 a0 ^^^ gfMul 9 a1 ^^^ gfMul 14 a2 ^^^ gfMul 11 a3,
   gfMul 11 a0 ^^^ gfMul 13 a1 ^^^ gfMul 9 a2 ^^^ gfMul 14 a3]

/-- A column operation on each of the four columns of a state. -/
def onColumns (f : Byte → Byte → Byte → Byte → Bytes) (st : Bytes) : Bytes :=
  (List.range 4).flatMap fun c =>
    f (st.getD (4 * c) 0) (st.getD (4 * c + 1) 0) (st.getD (4 * c + 2) 0) (st.getD (4 * c + 3) 0)

/-- R184: MixColumns. -/
def mixColumns (st : Bytes) : Bytes := onColumns mixColumn st

/-- R184: InvMixColumns. -/
def invMixColumns (st : Bytes) : Bytes := onColumns invMixColumn st

/-- R184: AddRoundKey(n). -/
def addRoundKey (w : List Bytes) (n : Nat) (st : Bytes) : Bytes := xorBytes st (roundKey w n)

/-- R185: round `n` of encryption, for `n` in 1..9. -/
def encRound (w : List Bytes) (st : Bytes) (n : Nat) : Bytes :=
  addRoundKey w n (mixColumns (shiftRows (subBytes st)))

/-- R186: round `n` of decryption, for `n` in 9..1. -/
def decRound (w : List Bytes) (st : Bytes) (n : Nat) : Bytes :=
  invMixColumns (addRoundKey w n (invSubBytes (invShiftRows st)))

/-- R185: `E_K(X)`. -/
def encBlock (k x : Bytes) : Bytes :=
  let w := keyWords k
  addRoundKey w 10 (shiftRows (subBytes
    ([1, 2, 3, 4, 5, 6, 7, 8, 9].foldl (encRound w) (addRoundKey w 0 x))))

/-- R186: `D_K(Y)`. -/
def decBlock (k y : Bytes) : Bytes :=
  let w := keyWords k
  addRoundKey w 0 (invSubBytes (invShiftRows
    ([9, 8, 7, 6, 5, 4, 3, 2, 1].foldl (decRound w) (addRoundKey w 10 y))))

end Sys2Proof.Machine
end

