-- ==== Sys2Proof/Machine/Cbc.lean ====
section
/-! DEFINITION. CBC mode and PKCS#7 padding (46_authenticated_encryption.md R281 to R284). -/

namespace Sys2Proof.Machine

/-- R281: the ciphertext of the blocks `P_i ..`, `prev` being `C_{i-1}`. -/
def cbcEncBlocks (k : Bytes) : Bytes → List Bytes → Bytes
  | _, [] => []
  | prev, p :: ps =>
    let c := encBlock k (xorBytes p prev)
    c ++ cbcEncBlocks k c ps

/-- R281: `CBC_Enc(K, IV, P)`. -/
def cbcEnc (k iv p : Bytes) : Bytes := cbcEncBlocks k iv (blocksOf 16 (p.length / 16) p)

/-- R282: the plaintext of the blocks `C_i ..`, `prev` being `C_{i-1}`. -/
def cbcDecBlocks (k : Bytes) : Bytes → List Bytes → Bytes
  | _, [] => []
  | prev, c :: cs => xorBytes (decBlock k c) prev ++ cbcDecBlocks k c cs

/-- R282: `CBC_Dec(K, IV, C)`, empty when there is no block. -/
def cbcDec (k iv c : Bytes) : Bytes := cbcDecBlocks k iv (blocksOf 16 (c.length / 16) c)

/-- R283: `p`, the number of padding bytes after `n` bytes. -/
def padCount (n : Nat) : Nat := 16 - n % 16

/-- R283: `Pad(P)`. -/
def pad (p : Bytes) : Bytes := p ++ List.replicate (padCount p.length) (BitVec.ofNat 8 (padCount p.length))

/-- R284: `Unpad(X)`; `none` is `Invalid`. -/
def unpad (x : Bytes) : Option Bytes :=
  if x.length = 0 then none
  else
    let p := x.getD (x.length - 1) 0
    if p.toNat < 1 ∨ p.toNat > 16 then none
    else if slice x (x.length - p.toNat) x.length ≠ List.replicate p.toNat p then none
    else some (slice x 0 (x.length - p.toNat))

end Sys2Proof.Machine
end

