-- ==== Sys2Proof/Machine/Sha256.lean ====
section
/-! DEFINITION. The SHA-256 core (40_sha256.md R120 to R127). -/

namespace Sys2Proof.Machine

/-- R120: the padded message, a multiple of 64 bytes long. -/
def shaPad (m : Bytes) : Bytes :=
  m ++ 0x80#8 :: List.replicate ((119 - m.length % 64) % 64) 0x00#8 ++ be64Bytes (8 * m.length)

/-- R122. -/
def shaCh (x y z : Word) : Word := (x &&& y) ^^^ (~~~x &&& z)

/-- R122. -/
def shaMaj (x y z : Word) : Word := (x &&& y) ^^^ (x &&& z) ^^^ (y &&& z)

/-- R122: `S0`. -/
def shaBigSigma0 (x : Word) : Word := x.rotateRight 2 ^^^ x.rotateRight 13 ^^^ x.rotateRight 22

/-- R122: `S1`. -/
def shaBigSigma1 (x : Word) : Word := x.rotateRight 6 ^^^ x.rotateRight 11 ^^^ x.rotateRight 25

/-- R122: `s0`. -/
def shaSmallSigma0 (x : Word) : Word := x.rotateRight 7 ^^^ x.rotateRight 18 ^^^ x >>> 3

/-- R122: `s1`. -/
def shaSmallSigma1 (x : Word) : Word := x.rotateRight 17 ^^^ x.rotateRight 19 ^^^ x >>> 10

/-- R123: the round constants `K[0..64)`. -/
def shaK : List Word :=
  tableRow 8 0x428a2f98_71374491_b5c0fbcf_e9b5dba5_3956c25b_59f111f1_923f82a4_ab1c5ed5
    ++ tableRow 8 0xd807aa98_12835b01_243185be_550c7dc3_72be5d74_80deb1fe_9bdc06a7_c19bf174
    ++ tableRow 8 0xe49b69c1_efbe4786_0fc19dc6_240ca1cc_2de92c6f_4a7484aa_5cb0a9dc_76f988da
    ++ tableRow 8 0x983e5152_a831c66d_b00327c8_bf597fc7_c6e00bf3_d5a79147_06ca6351_14292967
    ++ tableRow 8 0x27b70a85_2e1b2138_4d2c6dfc_53380d13_650a7354_766a0abb_81c2c92e_92722c85
    ++ tableRow 8 0xa2bfe8a1_a81a664b_c24b8b70_c76c51a3_d192e819_d6990624_f40e3585_106aa070
    ++ tableRow 8 0x19a4c116_1e376c08_2748774c_34b0bcb5_391c0cb3_4ed8aa4a_5b9cca4f_682e6ff3
    ++ tableRow 8 0x748f82ee_78a5636f_84c87814_8cc70208_90befffa_a4506ceb_bef9a3f7_c67178f2

/-- R125: the eight words `H[0..8)`, or the working variables `a .. h`. -/
structure ShaState where
  a : Word
  b : Word
  c : Word
  d : Word
  e : Word
  f : Word
  g : Word
  h : Word
deriving DecidableEq, Repr

/-- R124: the initial hash value `H0`. -/
def shaH0 : ShaState :=
  { a := 0x6a09e667#32, b := 0xbb67ae85#32, c := 0x3c6ef372#32, d := 0xa54ff53a#32,
    e := 0x510e527f#32, f := 0x9b05688c#32, g := 0x1f83d9ab#32, h := 0x5be0cd19#32 }

/-- R125: the next `n` schedule words, on the words so far with the latest first: there `W[t-2]`, `W[t-7]`,
`W[t-15]` and `W[t-16]` stand at 1, 6, 14 and 15. -/
def shaExtend : Nat → List Word → List Word
  | 0, ws => ws
  | n + 1, ws =>
    shaExtend n ((shaSmallSigma1 (ws.getD 1 0) + ws.getD 6 0 + shaSmallSigma0 (ws.getD 14 0) + ws.getD 15 0) :: ws)

/-- R121, R125: the message schedule `W[0..64)` of a 64-byte block. -/
def shaSchedule (blk : Bytes) : List Word := (shaExtend 48 (beWords blk).reverse).reverse

/-- R125: one round, with its `K[t]` and `W[t]`. -/
def shaRound (s : ShaState) (kw : Word × Word) : ShaState :=
  let t1 := s.h + shaBigSigma1 s.e + shaCh s.e s.f s.g + kw.1 + kw.2
  let t2 := shaBigSigma0 s.a + shaMaj s.a s.b s.c
  { h := s.g, g := s.f, f := s.e, e := s.d + t1, d := s.c, c := s.b, b := s.a, a := t1 + t2 }

/-- R125: the hash state after one block. -/
def shaCompress (s : ShaState) (blk : Bytes) : ShaState :=
  let r := (shaK.zip (shaSchedule blk)).foldl shaRound s
  { a := s.a + r.a, b := s.b + r.b, c := s.c + r.c, d := s.d + r.d,
    e := s.e + r.e, f := s.f + r.f, g := s.g + r.g, h := s.h + r.h }

/-- R126: the output bytes of a hash state. -/
def shaOutput (s : ShaState) : Bytes :=
  be32Bytes s.a ++ be32Bytes s.b ++ be32Bytes s.c ++ be32Bytes s.d
    ++ be32Bytes s.e ++ be32Bytes s.f ++ be32Bytes s.g ++ be32Bytes s.h

/-- R126: `SHA256(M)`, 32 bytes. -/
def sha256 (m : Bytes) : Bytes :=
  let p := shaPad m
  shaOutput ((blocksOf 64 (p.length / 64) p).foldl shaCompress shaH0)

end Sys2Proof.Machine
end

