-- ==== Sys2Proof/Machine/HmacCore.lean ====
section
/-! DEFINITION. The HMAC engine (43_hmac.md R220, R222). -/

namespace Sys2Proof.Machine

/-- R220: `K0`, the key padded to the 64-byte block, hashed first when longer. -/
def hmacKey (k : Bytes) : Bytes :=
  let k1 := if k.length > 64 then sha256 k else k
  k1 ++ List.replicate (64 - k1.length) 0x00#8

/-- R220: `HMAC(K, M)`, 32 bytes. -/
def hmacTag (k m : Bytes) : Bytes :=
  let k0 := hmacKey k
  let inner := sha256 (xorByte k0 0x36#8 ++ m)
  sha256 (xorByte k0 0x5c#8 ++ inner)

/-- R222: `TagEq(T, T')`, plain equality of all the bytes. -/
def tagEq (t t' : Bytes) : Bool := t == t'

end Sys2Proof.Machine
end

