-- ==== Sys2Proof/Machine/OperandTable.lean ====
section
/-! DEFINITION. The operand table of the command set (30_encoding.md R94): which operand registers each command
uses, and the most bytes it can write. -/

namespace Sys2Proof.Machine

/-- R94, column SRC0: does the command read the first source region? -/
def usesSrc0 : Instr → Bool
  | .createKey => false
  | .derivePassphraseKey => true
  | .deriveSubkeys => true
  | .wrapKey => true
  | .unwrapKey => true
  | .encrypt => true
  | .decrypt _ => true
  | .sha256 => true
  | .bcrypt => true
  | .blockEnc => true
  | .blockDec => true
  | .hmac => true
  | .zeroize => false

/-- R94, column SRC1: does the command read the second source region? -/
def usesSrc1 : Instr → Bool
  | .createKey => false
  | .derivePassphraseKey => true
  | .deriveSubkeys => false
  | .wrapKey => true
  | .unwrapKey => true
  | .encrypt => true
  | .decrypt _ => true
  | .sha256 => false
  | .bcrypt => true
  | .blockEnc => true
  | .blockDec => true
  | .hmac => true
  | .zeroize => false

/-- R94, column DST: does the command have a destination region? -/
def usesDst : Instr → Bool
  | .createKey => true
  | .derivePassphraseKey => true
  | .deriveSubkeys => true
  | .wrapKey => true
  | .unwrapKey => true
  | .encrypt => true
  | .decrypt _ => true
  | .sha256 => true
  | .bcrypt => true
  | .blockEnc => true
  | .blockDec => true
  | .hmac => true
  | .zeroize => false

/-- R94, column `MaxOut`: the most bytes the command can write, from the length `n1` of its second source. -/
def maxOut (i : Instr) (n1 : Nat) : Nat :=
  match i with
  | .createKey => Config.keyLen
  | .derivePassphraseKey => Config.keyLen
  | .deriveSubkeys => Config.subkeysLen
  | .wrapKey => Config.keyLen
  | .unwrapKey => Config.keyLen
  | .encrypt => 65 + 16 * (n1 / 16)
  | .decrypt _ => if n1 ≥ 65 then n1 - 50 else 0
  | .sha256 => 32
  | .bcrypt => Config.bcryptOutLen
  | .blockEnc => Config.blockLen
  | .blockDec => Config.blockLen
  | .hmac => Config.macLen
  | .zeroize => 0

end Sys2Proof.Machine
end

