-- ==== Sys2Proof/Machine/Operands.lean ====
section
/-! DEFINITION. The operands of a command and the skeleton every command runs in (30_encoding.md R94 to R97). -/

namespace Sys2Proof.Machine

/-- R95: the range check and read of one source operand; an operand the opcode does not use is not checked. -/
def readSource (s : State) (used : Bool) (addr len : Word) : Except Stop Bytes :=
  if used then
    if addr.toNat + len.toNat > Config.dbufSize then .error (.fail .range)
    else memRead s addr.toNat len.toNat
  else .ok []

/-- R94, column 'length checks': the code of the first that fails, in the rule's order. -/
def lengthChecks (i : Instr) (s0 s1 : Bytes) : Option Code :=
  match i with
  | .createKey => none
  | .derivePassphraseKey => if s1.length ≠ Config.saltLen then some .invalidSalt else none
  | .deriveSubkeys => if s0.length ≠ Config.keyLen then some .inputLength else none
  | .wrapKey => if s0.length ≠ Config.keyLen ∨ s1.length ≠ Config.keyLen then some .inputLength else none
  | .unwrapKey => if s0.length ≠ Config.keyLen ∨ s1.length ≠ Config.keyLen then some .inputLength else none
  | .encrypt => if s0.length ≠ Config.subkeysLen then some .inputLength else none
  | .decrypt v =>
    if s0.length ≠ Config.subkeysLen then some .inputLength
    else if s1.length < Config.decMinLen ∨ s1.length % 16 ≠ 1 then some .decryptFail
    else if v = true ∧ s1.getD 0 0 ≠ Config.versionConst then some .decryptFail
    else none
  | .sha256 => none
  | .bcrypt =>
    if s0.length < 1 ∨ s0.length > Config.bcryptKeyMax then some .inputLength
    else if s1.length ≠ Config.saltLen then some .invalidSalt
    else none
  | .blockEnc => if s0.length ≠ Config.keyLen ∨ s1.length ≠ Config.blockLen then some .inputLength else none
  | .blockDec => if s0.length ≠ Config.keyLen ∨ s1.length ≠ Config.blockLen then some .inputLength else none
  | .hmac => none
  | .zeroize => none

/-- R96: does the destination check fail for an output of up to `need` bytes? -/
def destinationFails (ops : OperandRegs) (need : Nat) : Bool :=
  need > ops.dstCap.toNat || ops.dstAddr.toNat + need > Config.dbufSize

/-- R97, steps 2 to 4: the source strings `S0` and `S1`, or the first check that fails. -/
def operands (i : Instr) (s : State) : Except Stop (Bytes × Bytes) := do
  let s0 ← readSource s (usesSrc0 i) s.lt.ops.src0Addr s.lt.ops.src0Len
  let s1 ← readSource s (usesSrc1 i) s.lt.ops.src1Addr s.lt.ops.src1Len
  match lengthChecks i s0 s1 with
  | some c => .error (.fail c)
  | none =>
    if usesDst i && destinationFails s.lt.ops (maxOut i s1.length) then .error (.fail .range)
    else .ok (s0, s1)

/-- R97, steps 5 and 6: what the outcome of a command's `Body` does to the machine. -/
def finish (s : State) (r : Except Stop Bytes) : Out :=
  match r with
  | .ok out => commit s s.lt.ops.dstAddr.toNat out
  | .error (.fail c) => .next (failCmd s c)
  | .error .waitEntropy => .next (requestEntropy s)
  | .error (.fault f) => .fault f

/-- R97: `Execute(Lt)` from step 2 on, for a command with a destination and the given `Body`. -/
def execute (i : Instr) (s : State) (body : Bytes → Bytes → Except Stop Bytes) : Out :=
  finish s (operands i s >>= fun srcs => body srcs.1 srcs.2)

end Sys2Proof.Machine
end

