-- ==== Sys2Proof/Machine/AuthEnc.lean ====
section
/-! DEFINITION. ENCRYPT and DECRYPT (46_authenticated_encryption.md). -/

namespace Sys2Proof.Machine

/-- R264: the cipher subkey of a SubKeys operand. -/
def cipherSubkey (sk : Bytes) : Bytes := slice sk 0 16

/-- R264: the MAC subkey of a SubKeys operand. -/
def macSubkey (sk : Bytes) : Bytes := slice sk 16 32

/-- R285: the AuthenticatedCiphertext of plaintext `p` under SubKeys `sk` with the given `IV`. -/
def sealed (sk iv p : Bytes) : Bytes :=
  let c := cbcEnc (cipherSubkey sk) iv (pad p)
  let t := hmacTag (macSubkey sk) (iv ++ c)
  Config.versionConst :: iv ++ c ++ t

/-- R285: `ENCRYPT`. -/
def execEncrypt (s : State) : Out :=
  execute .encrypt s fun s0 s1 => (getEntropy16 s).map fun iv => sealed s0 iv s1

/-- R286: the `Body` of DECRYPT: the tag, then the block count (R289), then the padding; one code for all (R288). -/
def opened (sk a : Bytes) : Except Stop Bytes :=
  let t := hmacTag (macSubkey sk) (slice a 1 (a.length - 32))
  if tagEq t (slice a (a.length - 32) a.length) = false then .error (.fail .decryptFail)
  else if a.length < 65 then .error (.fail .decryptFail)
  else
    match unpad (cbcDec (cipherSubkey sk) (slice a 1 17) (slice a 17 (a.length - 32))) with
    | none => .error (.fail .decryptFail)
    | some p => .ok p

/-- R286: `DECRYPT`; `v` is the version-check flag, used in the length checks (R287). -/
def execDecrypt (v : Bool) (s : State) : Out :=
  execute (.decrypt v) s fun s0 s1 => opened s0 s1

end Sys2Proof.Machine
end

