-- ==== Sys2Proof/Machine/Bcrypt.lean ====
section
/-! DEFINITION. The bcrypt key-stretching engine (41_bcrypt.md R150 to R158). -/

namespace Sys2Proof.Machine

/-- R150: a Blowfish state, engine scratch only; `S[s][k]` stands at `s[256*s + k]`. -/
structure BfState where
  /-- the P-array, 18 words -/
  p : Array Word
  /-- the four S-boxes, 4 x 256 words -/
  s : Array Word

/-- R151: the initial state. -/
def bfInit : BfState := { p := bfPInit.toArray, s := bfSInit.toArray }

/-- R152: the round function `F`. -/
def bfF (st : BfState) (x : Word) : Word :=
  ((st.s.getD (x.extractLsb' 24 8).toNat 0 + st.s.getD (256 + (x.extractLsb' 16 8).toNat) 0)
    ^^^ st.s.getD (512 + (x.extractLsb' 8 8).toNat) 0)
    + st.s.getD (768 + (x.extractLsb' 0 8).toNat) 0

/-- R153: the two rounds of `BF_Encrypt` at `i`. -/
def bfRoundPair (st : BfState) (lr : Word × Word) (i : Nat) : Word × Word :=
  let l := lr.1 ^^^ st.p.getD i 0
  let r := lr.2 ^^^ bfF st l
  let r := r ^^^ st.p.getD (i + 1) 0
  let l := l ^^^ bfF st r
  (l, r)

/-- R153: `BF_Encrypt(l, r)`, its halves swapped on output. -/
def bfEncrypt (st : BfState) (lr : Word × Word) : Word × Word :=
  let lr := [0, 2, 4, 6, 8, 10, 12, 14].foldl (bfRoundPair st) lr
  (lr.2 ^^^ st.p.getD 17 0, lr.1 ^^^ st.p.getD 16 0)

/-- R154: one byte of `StreamWord`, on the word so far and the position. -/
def streamByte (d : Bytes) (wj : Word × Nat) : Word × Nat :=
  (wj.1 * 256 + (d.getD wj.2 0).setWidth 32, (wj.2 + 1) % d.length)

/-- R154: `StreamWord(D, j)`, the next word of the cyclic stream and the next position. -/
def streamWord (d : Bytes) (j : Nat) : Word × Nat := repeatN (streamByte d) 4 (0, j)

/-- R155: the first loop of a key expansion, `P[i] <- P[i] xor w` along the key stream. -/
def bfMixKey (st : BfState) (key : Bytes) : BfState :=
  ((List.range 18).foldl
    (fun (acc : BfState × Nat) i =>
      let wj := streamWord key acc.2
      ({ acc.1 with p := acc.1.p.setIfInBounds i (acc.1.p.getD i 0 ^^^ wj.1) }, wj.2))
    (st, 0)).1

/-- R155: the running values of a key expansion: the state, the last `(l, r)` and the salt position `js`. -/
structure BfExpand where
  st : BfState
  lr : Word × Word
  js : Nat

/-- R155: the next encryption of a key expansion, the salt words xored into the last `(l, r)`. -/
def bfNext (salt : Bytes) (e : BfExpand) : BfExpand :=
  let a := streamWord salt e.js
  let b := streamWord salt a.2
  { e with lr := bfEncrypt e.st (e.lr.1 ^^^ a.1, e.lr.2 ^^^ b.1), js := b.2 }

/-- R155: the step at `i` that fills `P[i]` and `P[i+1]`. -/
def bfFillP (salt : Bytes) (e : BfExpand) (i : Nat) : BfExpand :=
  let e := bfNext salt e
  { e with st := { e.st with p := (e.st.p.setIfInBounds (2 * i) e.lr.1).setIfInBounds (2 * i + 1) e.lr.2 } }

/-- R155: the step that fills two neighbouring S-box entries. -/
def bfFillS (salt : Bytes) (e : BfExpand) (i : Nat) : BfExpand :=
  let e := bfNext salt e
  { e with st := { e.st with s := (e.st.s.setIfInBounds (2 * i) e.lr.1).setIfInBounds (2 * i + 1) e.lr.2 } }

/-- R155: `ExpandKeySalted(salt, key)`: 9 encryptions fill the P-array, 512 the four S-boxes in order. -/
def expandKeySalted (st : BfState) (salt key : Bytes) : BfState :=
  let e := (List.range 9).foldl (bfFillP salt) { st := bfMixKey st key, lr := (0, 0), js := 0 }
  ((List.range 512).foldl (bfFillS salt) e).st

/-- R156: `ExpandKey(key)` is `ExpandKeySalted` with both salt words taken as 0, which a salt of zeros gives. -/
def expandKey (st : BfState) (key : Bytes) : BfState :=
  expandKeySalted st (List.replicate 16 0x00#8) key

/-- R157: `EksSetup(cost, salt, key)`. -/
def eksSetup (cost : Nat) (salt key : Bytes) : BfState :=
  repeatN (fun st => expandKey (expandKey st key) salt) (2 ^ cost) (expandKeySalted bfInit salt key)

/-- R158: the words of "OrpheanBeholderScryDoubt", in pairs. -/
def bcryptText : List (Word × Word) :=
  [(0x4f727068#32, 0x65616e42#32), (0x65686f6c#32, 0x64657253#32), (0x63727944#32, 0x6f756274#32)]

/-- R158: `BCRYPT(cost, salt, key)`, 24 bytes. -/
def bcryptHash (cost : Nat) (salt key : Bytes) : Bytes :=
  let st := eksSetup cost salt key
  bcryptText.flatMap fun c =>
    let c := repeatN (bfEncrypt st) 64 c
    be32Bytes c.1 ++ be32Bytes c.2

end Sys2Proof.Machine
end

