-- ==== Sys2Proof/Machine/KeyGeneration.lean ====
section
/-! DEFINITION. CREATE_KEY and DERIVE_PASSPHRASE_KEY (44_key_derivation.md). -/

namespace Sys2Proof.Machine

/-- R241: `CREATE_KEY`. -/
def execCreateKey (s : State) : Out :=
  execute .createKey s fun _ _ => getEntropy16 s

/-- R242: `PassphraseKey(pw, salt)`. -/
def passphraseKey (pw salt : Bytes) : Bytes :=
  slice (bcryptHash Config.bcryptCost salt (sha256 pw)) 0 16

/-- R243: `DERIVE_PASSPHRASE_KEY`. -/
def execDerivePassphraseKey (s : State) : Out :=
  execute .derivePassphraseKey s fun s0 s1 => .ok (passphraseKey s0 s1)

end Sys2Proof.Machine
end

