-- ==== Sys2Proof/Machine/Primitives.lean ====
section
/-! DEFINITION. The four engines as commands: SHA256 (40_sha256.md R128), BCRYPT (41_bcrypt.md R159), BLOCK_ENC and
BLOCK_DEC (42_block_cipher.md R187, R188), HMAC (43_hmac.md R221). -/

namespace Sys2Proof.Machine

/-- R128: `SHA256`. -/
def execSha256 (s : State) : Out :=
  execute .sha256 s fun s0 _ => .ok (sha256 s0)

/-- R159: `BCRYPT`, at the fixed cost. -/
def execBcrypt (s : State) : Out :=
  execute .bcrypt s fun s0 s1 => .ok (bcryptHash Config.bcryptCost s1 s0)

/-- R187: `BLOCK_ENC`. -/
def execBlockEnc (s : State) : Out :=
  execute .blockEnc s fun s0 s1 => .ok (encBlock s0 s1)

/-- R188: `BLOCK_DEC`. -/
def execBlockDec (s : State) : Out :=
  execute .blockDec s fun s0 s1 => .ok (decBlock s0 s1)

/-- R221: `HMAC`. -/
def execHmac (s : State) : Out :=
  execute .hmac s fun s0 s1 => .ok (hmacTag s0 s1)

end Sys2Proof.Machine
end

