-- ==== Sys2Proof/Machine/Wrap.lean ====
section
/-! DEFINITION. WRAP_KEY, UNWRAP_KEY and DERIVE_SUBKEYS (45_wrap_subkeys.md). -/

namespace Sys2Proof.Machine

/-- R260: the WrappedKey of a child under a parent. -/
def wrapped (parent child : Bytes) : Bytes := encBlock parent (xorByte child Config.wrapXor)

/-- R260: `WRAP_KEY`. -/
def execWrapKey (s : State) : Out :=
  execute .wrapKey s fun s0 s1 => .ok (wrapped s0 s1)

/-- R261: the child a WrappedKey stands for under a parent. -/
def unwrapped (parent wk : Bytes) : Bytes := xorByte (decBlock parent wk) Config.wrapXor

/-- R261: `UNWRAP_KEY`. -/
def execUnwrapKey (s : State) : Out :=
  execute .unwrapKey s fun s0 s1 => .ok (unwrapped s0 s1)

/-- R263: `DERIVE_SUBKEYS`. -/
def execDeriveSubkeys (s : State) : Out :=
  execute .deriveSubkeys s fun s0 _ => .ok (sha256 s0)

end Sys2Proof.Machine
end

