-- ==== Sys2Proof/Machine/Zeroize.lean ====
section
/-! DEFINITION. ZEROIZE (47_zeroize.md R310). -/

namespace Sys2Proof.Machine

/-- R310: `ZEROIZE`; no operand is read or checked, and the clearing is part of the completion step. -/
def execZeroize (s : State) : Out :=
  .next (complete { s with dbuf := Memory.cleared, outLen := 0 } .ok)

end Sys2Proof.Machine
end

