-- ==== Sys2Proof/Machine/Dispatch.lean ====
section
/-! DEFINITION. The meaning of each command, one arm per constructor of `Instr`. -/

namespace Sys2Proof.Machine

def exec (i : Instr) (s : State) : Host.Outcome State Fault Refusal :=
  match i with
  | .createKey => Sys2Proof.Machine.execCreateKey s
  | .derivePassphraseKey => Sys2Proof.Machine.execDerivePassphraseKey s
  | .deriveSubkeys => Sys2Proof.Machine.execDeriveSubkeys s
  | .wrapKey => Sys2Proof.Machine.execWrapKey s
  | .unwrapKey => Sys2Proof.Machine.execUnwrapKey s
  | .encrypt => Sys2Proof.Machine.execEncrypt s
  | .decrypt v => Sys2Proof.Machine.execDecrypt v s
  | .sha256 => Sys2Proof.Machine.execSha256 s
  | .bcrypt => Sys2Proof.Machine.execBcrypt s
  | .blockEnc => Sys2Proof.Machine.execBlockEnc s
  | .blockDec => Sys2Proof.Machine.execBlockDec s
  | .hmac => Sys2Proof.Machine.execHmac s
  | .zeroize => Sys2Proof.Machine.execZeroize s

end Sys2Proof.Machine
end

