-- ==== Sys2Proof/Machine/Engine.lean ====
section
/-! DEFINITION. The command engine and the events that reach the block (30_encoding.md R97; 10_state.md R34;
70_reset_and_hazards.md R360, R371, R373). -/

namespace Sys2Proof.Machine

/-- R92, R97 step 1: the command of the snapshot runs; an illegal word completes with `ILLEGAL_CMD`. -/
def runCommand (s : State) : Out :=
  match decode s.lt.cmd with
  | .ok i => exec i s
  | .error _ => .next (failCmd s .illegalCmd)

/-- R34, R373: the command engine steps; idle, it does nothing. -/
def engineStep (s : State) : Out :=
  match s.phase with
  | .idle => .next s
  | .exec => runCommand s
  | .waitEnt => runCommand s

/-- R240, R34: the entropy source answers: the waiting command goes on to its completion in the same step.  With no
request outstanding the answer is ignored (R360 item 3, log entry 6). -/
def entropyArrives (s : State) (a : EntropyAnswer) : Out :=
  match s.phase with
  | .idle => .next s
  | .exec => .next s
  | .waitEnt => runCommand { s with ent := some a }

/-- R360: reset, in any phase; only what the outside world does next stays. -/
def resetState (s : State) : State := { State.reset with env := s.env }

/-- What an event does. -/
def applyEvent (e : Event) (s : State) : Out :=
  match e with
  | .busRead off n => .next (busRead s off n)
  | .busWrite off n d => .next (busWrite s off n d)
  | .engine => engineStep s
  | .entropy a => entropyArrives s a
  | .reset => .next (resetState s)

end Sys2Proof.Machine
end

