-- ==== Sys2Proof/Machine/Step.lean ====
section
/-! DEFINITION. One step of the machine, and where it fetches a command word. -/

namespace Sys2Proof.Machine

/-- One step: the oldest event still to come takes effect; when none is left the command engine steps (R373). -/
def step (s : State) : Host.Outcome State Fault Refusal :=
  match s.env with
  | [] => engineStep s
  | e :: rest => applyEvent e { s with env := rest }

/-- `s` right after the issue of the command word that the table numbers `w` (R28), with an engine step as the
next event, so that the next step decodes and runs it. -/
def State.withFetchWord (s : State) (nbits w : Nat) : State :=
  { issue s (BitVec.ofNat 32 (w % 2 ^ nbits)) with env := .engine :: s.env }

end Sys2Proof.Machine
end

