-- ==== Sys2Proof/WellFormed.lean ====
section
/-! DEFINITION. Well-formedness.  Every term of `Instr` is one of the 14 legal commands (30_encoding.md R91, R92:
the flag `V` exists on DECRYPT only), so the checks are on a command as an assembler writes it, with its
operands (R98). -/

namespace Sys2Proof

/-- R98: one operand as written, `<ADDR>:<LEN>` of a source or `<DST_ADDR>/<DST_CAP>` of the destination. -/
structure Region where
  /-- the `DBUF` offset of the first byte -/
  addr : Nat
  /-- the length in bytes, or the capacity of a destination -/
  len : Nat
deriving DecidableEq, Repr

/-- R98: a command as an assembler writes it, with the operands it lists. -/
structure AsmCommand where
  /-- the mnemonic, `.V` included -/
  instr : Instr
  /-- `d=<DST_ADDR>/<DST_CAP>` -/
  d : Option Region
  /-- `s0=<SRC0_ADDR>:<SRC0_LEN>` -/
  s0 : Option Region
  /-- `s1=<SRC1_ADDR>:<SRC1_LEN>` -/
  s1 : Option Region
deriving DecidableEq, Repr

/-- R29: both numbers fit the 32-bit operand registers. -/
def Region.fits (r : Region) : Bool := r.addr < 2 ^ 32 && r.len < 2 ^ 32

/-- An operand is listed exactly when `used` says the opcode uses it, and it fits its registers. -/
def operandListed (used : Bool) (r : Option Region) : Bool :=
  match r with
  | none => !used
  | some r => used && r.fits

/-- R98: a written command lists exactly the operands its opcode uses (R94), each fitting its registers. -/
def AsmCommand.wellFormed (c : AsmCommand) : Bool :=
  operandListed (Machine.usesDst c.instr) c.d
    && operandListed (Machine.usesSrc0 c.instr) c.s0
    && operandListed (Machine.usesSrc1 c.instr) c.s1

/-- R91, R92: is the instruction one of the legal commands?  Every term of `Instr` is. -/
def Instr.wellFormed : Instr → Bool
  | .createKey => true
  | .derivePassphraseKey => true
  | .deriveSubkeys => true
  | .wrapKey => true
  | .unwrapKey => true
  | .encrypt => true
  | .decrypt _ => true
  | .sha256 => true
  | .bcrypt => true
  | .blockEnc => true
  | .blockDec => true
  | .hmac => true
  | .zeroize => true

end Sys2Proof
end

