-- ==== Sys2Proof/Machine/HostProgram.lean ====
section
/-! DEFINITION. Host programs: the command syntax and the pseudo-instructions (30_encoding.md R98, R99), as bus
transactions. -/

namespace Sys2Proof.Machine

/-- R91: the mnemonic of a command, with the `.V` of R98. -/
def mnemonic : Instr → String
  | .createKey => "CREATE_KEY"
  | .derivePassphraseKey => "DERIVE_PASSPHRASE_KEY"
  | .deriveSubkeys => "DERIVE_SUBKEYS"
  | .wrapKey => "WRAP_KEY"
  | .unwrapKey => "UNWRAP_KEY"
  | .encrypt => "ENCRYPT"
  | .decrypt false => "DECRYPT"
  | .decrypt true => "DECRYPT.V"
  | .sha256 => "SHA256"
  | .bcrypt => "BCRYPT"
  | .blockEnc => "BLOCK_ENC"
  | .blockDec => "BLOCK_DEC"
  | .hmac => "HMAC"
  | .zeroize => "ZEROIZE"

/-- R98: one listed operand, its numbers in decimal (log entry 17). -/
def operandText (pre sep : String) (r : Option Region) : List String :=
  match r with
  | none => []
  | some g => [pre ++ toString g.addr ++ sep ++ toString g.len]

/-- R98: a command as text, listing the operands it has. -/
def commandText (c : AsmCommand) : String :=
  match operandText "d=" "/" c.d ++ operandText "s0=" ":" c.s0 ++ operandText "s1=" ":" c.s1 with
  | [] => mnemonic c.instr
  | os => mnemonic c.instr ++ " " ++ String.intercalate ", " os

/-- R99: the statements of a host program. -/
inductive HostOp where
  /-- `W32`, `W16`, `W8 off, v` -/
  | write (off : Offset) (n : BusSize) (v : Word)
  /-- `R32`, `R16`, `R8 off` -/
  | read (off : Offset) (n : BusSize)
  /-- `POLL off, mask, v` -/
  | poll (off : Offset) (mask v : Word)
deriving DecidableEq, Repr

/-- R99: the pseudo-instructions. -/
inductive Pseudo where
  /-- `WBYTES a, <hex string>` -/
  | wbytes (a : Nat) (b : Bytes)
  /-- `ISSUE <command>` -/
  | issue (c : AsmCommand)
  /-- `WAIT` -/
  | wait
  /-- `ACK` -/
  | ack
deriving DecidableEq, Repr

/-- R99: one `W8` per byte. -/
def wbytesOps : Nat → Bytes → List HostOp
  | _, [] => []
  | a, b :: bs => .write (BitVec.ofNat 13 (dbufOffset + a)) .one (b.setWidth 32) :: wbytesOps (a + 1) bs

/-- R99: the writes of one operand's two registers; an operand the command does not list is left out. -/
def operandOps (addrOff lenOff : Offset) (r : Option Region) : List HostOp :=
  match r with
  | none => []
  | some g => [.write addrOff .four (BitVec.ofNat 32 g.addr), .write lenOff .four (BitVec.ofNat 32 g.len)]

/-- R99: the expansion of a pseudo-instruction. -/
def expand : Pseudo → List HostOp
  | .wbytes a b => wbytesOps a b
  | .issue c =>
    operandOps 0x014#13 0x018#13 c.s0 ++ operandOps 0x01C#13 0x020#13 c.s1 ++ operandOps 0x024#13 0x028#13 c.d
      ++ [.write 0x010#13 .four (encode c.instr)]
  | .wait => [.poll 0x00C#13 0x1#32 0x0#32]
  | .ack => [.write 0x00C#13 .four 0x6#32]

/-- R99: the transaction a statement performs; a POLL performs its read once each time round. -/
def transaction : HostOp → Event
  | .write off n v => .busWrite off n v
  | .read off n => .busRead off n
  | .poll off _ _ => .busRead off .four

/-- R99: is the statement over, given the answer to its transaction?  A POLL ends when `(data and mask) = v`. -/
def opFinished (op : HostOp) (answer : Option BusAnswer) : Bool :=
  match op with
  | .write _ _ _ => true
  | .read _ _ => true
  | .poll _ mask v =>
    match answer with
    | some a => a.data &&& mask = v
    | none => false

/-- R99: the rest of a host program after its next statement's transaction was answered. -/
def hostAdvance (p : List HostOp) (answer : Option BusAnswer) : List HostOp :=
  match p with
  | [] => []
  | op :: rest => if opFinished op answer then rest else op :: rest

/-- R99: the next transaction of a host program put before everything still to come; `none` when it has ended. -/
def hostNext (p : List HostOp) (s : State) : Option State :=
  match p with
  | [] => none
  | op :: _ => some { s with env := transaction op :: s.env }

end Sys2Proof.Machine
end

