-- ==== Sys2Proof/Safety.lean ====
section
/-! DEFINITION. What the statements speak of: the invariant of the machine, the state a command leaves, and the
regions it names. -/

namespace Sys2Proof.Machine

/-- The outcome is a next state: neither a fault nor a refusal. -/
def AnswersNext (o : Out) : Prop := ∃ t, o = .next t

/-- The invariant of the machine, kept by every step. -/
structure MachineInv (s : State) : Prop where
  /-- `DBUF` is in canonical form. -/
  dbuf_wf : Memory.wf s.dbuf
  /-- R26, R31, R366: from issue until completion `DONE`, `ERR` and `OUT_LEN` are 0. -/
  running : s.phase ≠ .idle → s.done = false ∧ s.err = .ok ∧ s.outLen = 0
  /-- R34: the snapshot equals the registers throughout a command. -/
  snapshot : s.phase ≠ .idle → s.lt = { cmd := s.cmd, ops := s.ops }
  /-- R34, R240: only CREATE_KEY and ENCRYPT wait, and only after their checks passed. -/
  waiting : s.phase = .waitEnt →
    ∃ i srcs, decode s.cmd = .ok i ∧ (i = .createKey ∨ i = .encrypt) ∧ operands i s = .ok srcs
  /-- An entropy answer does not outlive the step it arrives in. -/
  no_answer : s.ent = none
  /-- R31: `OUT_LEN` is 0 after a failed command. -/
  failed : s.err ≠ .ok → s.outLen = 0
  /-- R60, R67: an output lies inside `DBUF`. -/
  outLen_le : s.outLen.toNat ≤ Config.dbufSize

/-- The first source region of the snapshot, as a byte string. -/
def source0 (s : State) : Bytes := Memory.readBytes s.dbuf s.lt.ops.src0Addr.toNat s.lt.ops.src0Len.toNat

/-- The second source region of the snapshot, as a byte string. -/
def source1 (s : State) : Bytes := Memory.readBytes s.dbuf s.lt.ops.src1Addr.toNat s.lt.ops.src1Len.toNat

/-- R95: the first source region lies inside `DBUF`. -/
abbrev Source0Inside (s : State) : Prop := s.lt.ops.src0Addr.toNat + s.lt.ops.src0Len.toNat ≤ 4096

/-- R95: the second source region lies inside `DBUF`. -/
abbrev Source1Inside (s : State) : Prop := s.lt.ops.src1Addr.toNat + s.lt.ops.src1Len.toNat ≤ 4096

/-- R96: an output of up to `need` bytes fits the destination and lies inside `DBUF`. -/
abbrev DestinationFits (s : State) (need : Nat) : Prop :=
  need ≤ s.lt.ops.dstCap.toNat ∧ s.lt.ops.dstAddr.toNat + need ≤ 4096

/-- R324: the state a command that succeeds with output `out` leaves; every field it does not name is unchanged. -/
def afterCommit (s : State) (out : Bytes) : State :=
  { s with
    dbuf := Memory.writeBytes s.dbuf s.lt.ops.dstAddr.toNat out
    outLen := BitVec.ofNat 32 out.length
    err := .ok
    done := true
    phase := .idle
    ent := none }

/-- R324: the state a command that fails with `code` leaves; every field it does not name is unchanged. -/
def afterFail (s : State) (code : Code) : State :=
  { s with outLen := 0, err := code, done := true, phase := .idle, ent := none }

/-- R92: the illegal command words, in the rule's own words: an opcode that is not in the opcode map, a reserved bit
that is 1, or `V = 1` on a command other than DECRYPT. -/
abbrev IllegalWord (w : Word) : Prop :=
  (w.extractLsb' 0 8).toNat = 0x00
    ∨ (0x08 ≤ (w.extractLsb' 0 8).toNat ∧ (w.extractLsb' 0 8).toNat ≤ 0x0F)
    ∨ (0x15 ≤ (w.extractLsb' 0 8).toNat ∧ (w.extractLsb' 0 8).toNat ≤ 0x1F)
    ∨ (0x21 ≤ (w.extractLsb' 0 8).toNat ∧ (w.extractLsb' 0 8).toNat ≤ 0xFF)
    ∨ w.extractLsb' 9 23 ≠ 0
    ∨ (w.getLsbD 8 = true ∧ (w.extractLsb' 0 8).toNat ≠ 0x07)

/-- `n` steps, stopping at the first that is no next state. -/
def stepN : Nat → State → Out
  | 0, s => .next s
  | n + 1, s =>
    match step s with
    | .next t => stepN n t
    | .fault f => .fault f
    | .refused r => .refused r

/-- A bus read or a bus write. -/
def isTransaction : Event → Bool
  | .busRead _ _ => true
  | .busWrite _ _ _ => true
  | .engine => false
  | .entropy _ => false
  | .reset => false

end Sys2Proof.Machine
end

