-- ==== Sys2Proof/Certificates/Slice0/Obligations.lean ====
section
/-! DEFINITION. The statements for the provers. -/

open Sys2Proof Sys2Proof.Machine

/-! ### Command words -/

/-- R91, R92: a word decodes to a command exactly when it is that command's word, over all 2^32 words; so the decoding
of every encoding gives the command back, and no other word decodes to it. -/
def Obligations.DecodeInvertsEncode : Prop :=
  ∀ (w : Word) (i : Instr), decode w = .ok i ↔ encode i = w

/-- R91: the fourteen legal words, written out. -/
def Obligations.LegalWordsDecodeToTheirCommands : Prop :=
  decode 0x00000001#32 = .ok .createKey ∧ decode 0x00000002#32 = .ok .derivePassphraseKey
    ∧ decode 0x00000003#32 = .ok .deriveSubkeys ∧ decode 0x00000004#32 = .ok .wrapKey
    ∧ decode 0x00000005#32 = .ok .unwrapKey ∧ decode 0x00000006#32 = .ok .encrypt
    ∧ decode 0x00000007#32 = .ok (.decrypt false) ∧ decode 0x00000107#32 = .ok (.decrypt true)
    ∧ decode 0x00000010#32 = .ok .sha256 ∧ decode 0x00000011#32 = .ok .bcrypt
    ∧ decode 0x00000012#32 = .ok .blockEnc ∧ decode 0x00000013#32 = .ok .blockDec
    ∧ decode 0x00000014#32 = .ok .hmac ∧ decode 0x00000020#32 = .ok .zeroize

/-- R92: exactly the words of the rule's list are illegal; such a word is issued like any other and completes with
`ILLEGAL_CMD`, leaving everything but the completion state as it was; the reset value of `CMD` is illegal. -/
def Obligations.IllegalWordsCompleteWithIllegalCmd : Prop :=
  (∀ w : Word, IllegalWord w ↔ ∀ i : Instr, decode w ≠ .ok i)
    ∧ (∀ (s : State) (w : Word), s.phase = .idle → regWrite s .cmd w = issue s w)
    ∧ (∀ s : State, s.phase ≠ .idle → IllegalWord s.lt.cmd → engineStep s = .next (afterFail s .illegalCmd))
    ∧ IllegalWord State.reset.cmd

/-! ### The step -/

/-- When the engine steps and the snapshot's word decodes to a command, the step is `exec` of that command, whether the
queue of inputs is empty or has an engine step at its head; and a command's word placed where the machine fetches is
what the next step runs, on the state its issue (R28) leaves.  For any word, such a step is the engine's, which while
idle changes nothing (R34, R311, R334); and a step with a bus transaction at the head of the queue performs that
transaction.  The queue, its empty case and withFetchWord are the model's (log entries 1, 2 and 15). -/
def Obligations.StepRunsTheDecodedCommand : Prop :=
  (∀ (s : State) (i : Instr), s.phase ≠ .idle → decode s.lt.cmd = .ok i →
    (s.env = [] → step s = exec i s)
      ∧ ∀ rest, s.env = .engine :: rest → step s = exec i { s with env := rest })
    ∧ (∀ (s : State) (i : Instr), step (s.withFetchWord 32 (encode i).toNat) = exec i (issue s (encode i)))
    ∧ (∀ s : State,
      (s.env = [] → step s = engineStep s)
        ∧ (∀ rest, s.env = .engine :: rest → step s = engineStep { s with env := rest })
        ∧ (s.phase = .idle → engineStep s = .next s))
    ∧ (∀ (s : State) (off : Offset) (n : BusSize) (rest : List Event), s.env = .busRead off n :: rest →
      step s = .next (busRead { s with env := rest } off n))
    ∧ ∀ (s : State) (off : Offset) (n : BusSize) (d : Word) (rest : List Event), s.env = .busWrite off n d :: rest →
      step s = .next (busWrite { s with env := rest } off n d)

/-- The spec's "every input to every command has exactly one outcome given the entropy answer, and every bus transaction
has exactly one effect" (93_implementation_defined.md) and R67: no step, from any state, ends in a fault or a
refusal.  The inputs of a step are the model's queue (log entry 1). -/
def Obligations.EveryStepAnswersNext : Prop :=
  ∀ s : State, AnswersNext (step s)

/-- 70_reset_and_hazards.md, R372 and R373: once the inputs still to come are used up, one more step has completed the
running command, or left it waiting for entropy.  That one engine step completes a command, and comes when the queue is
empty, is the model's choice (log entries 1, 2 and 14). -/
def Obligations.EngineFinishesAfterItsInputs : Prop :=
  ∀ s : State, ∃ t, stepN (s.env.length + 1) s = .next t ∧ t.env = [] ∧ t.phase ≠ .exec

/-! ### The invariant -/

/-- The reset state meets the invariant. -/
def Obligations.ResetMeetsInvariant : Prop := MachineInv State.reset

/-- Every step keeps the invariant: the canonical form of `DBUF`; `DONE`, `ERR` and `OUT_LEN` zero while a command
runs; the snapshot equal to the registers while it runs; only CREATE_KEY and ENCRYPT waiting, with their checks passed;
`OUT_LEN` zero after a failure and never beyond `DBUF`. -/
def Obligations.StepKeepsInvariant : Prop :=
  ∀ s t : State, MachineInv s → step s = .next t → MachineInv t

/-- R34: the engine's transitions.  From IDLE only the write of `CMD` leads on, to EXEC with the snapshot of R28.  From
EXEC only reset, or an engine step that sets `DONE`, leads to IDLE, and only CREATE_KEY and ENCRYPT start to wait.  From
WAIT_ENT, in a state of the machine, only reset, or an entropy answer in a step that sets `DONE`, leads to IDLE.  That a
waiting command never goes back to EXEC, as R240's pseudocode does for a moment, is the model's (log entry 4); what a
step performs is the head of the model's queue, and an empty one is an engine step (log entries 1 and 2). -/
def Obligations.PhaseTransitions : Prop :=
  ∀ s t : State, step s = .next t →
    (s.phase = .idle →
      t.phase = .idle
        ∨ (t.phase = .exec
          ∧ ∃ w, s.env.head? = some (.busWrite 0x010#13 .four w) ∧ t.lt = { cmd := w, ops := s.ops }))
      ∧ (s.phase = .exec → t.phase = .idle →
          (s.env.head? = some .reset ∧ t = { State.reset with env := s.env.tail })
            ∨ ((s.env = [] ∨ s.env.head? = some .engine) ∧ engineStep { s with env := s.env.tail } = .next t
              ∧ t.done = true))
      ∧ (s.phase = .exec → t.phase = .waitEnt →
          (decode s.lt.cmd = .ok .createKey ∨ decode s.lt.cmd = .ok .encrypt)
            ∧ (s.env = [] ∨ s.env.head? = some .engine))
      ∧ (MachineInv s → s.phase = .waitEnt → t.phase = .idle →
          (s.env.head? = some .reset ∧ t = { State.reset with env := s.env.tail })
            ∨ (∃ a, s.env.head? = some (.entropy a)) ∧ t.done = true)
      ∧ (s.phase = .waitEnt → t.phase ≠ .exec)

/-! ### Bus transactions -/

/-- R22 to R31: what an aligned 4-byte read of each register answers, and R32 of a reserved offset.  R69: a read, of any
offset and size, in any phase, changes nothing but the answer the bus holds. -/
def Obligations.RegisterReads : Prop :=
  ∀ s : State,
    readAnswer s 0x000#13 .four = { resp := .okay, data := 0x54430001#32 }
      ∧ readAnswer s 0x004#13 .four = { resp := .okay, data := 0x00081000#32 }
      ∧ readAnswer s 0x008#13 .four = { resp := .okay, data := if s.ie then 1#32 else 0#32 }
      ∧ readAnswer s 0x00C#13 .four = { resp := .okay, data := statusWord s }
      ∧ readAnswer s 0x010#13 .four = { resp := .okay, data := s.cmd }
      ∧ readAnswer s 0x014#13 .four = { resp := .okay, data := s.ops.src0Addr }
      ∧ readAnswer s 0x018#13 .four = { resp := .okay, data := s.ops.src0Len }
      ∧ readAnswer s 0x01C#13 .four = { resp := .okay, data := s.ops.src1Addr }
      ∧ readAnswer s 0x020#13 .four = { resp := .okay, data := s.ops.src1Len }
      ∧ readAnswer s 0x024#13 .four = { resp := .okay, data := s.ops.dstAddr }
      ∧ readAnswer s 0x028#13 .four = { resp := .okay, data := s.ops.dstCap }
      ∧ readAnswer s 0x02C#13 .four = { resp := .okay, data := s.outLen }
      ∧ (∀ off : Offset, 0x030 ≤ off.toNat → off.toNat < 0x1000 → off.toNat % 4 = 0 →
          readAnswer s off .four = { resp := .okay, data := 0 })
      ∧ ∀ (off : Offset) (n : BusSize), busRead s off n = { s with resp := some (readAnswer s off n) }

/-- R23, R24, R31, R32: an aligned 4-byte write of `ID`, `CAP`, `OUT_LEN` or a reserved offset changes nothing, busy or
not, and is answered `OKAY`. -/
def Obligations.ReadOnlyAndReservedWritesIgnored : Prop :=
  ∀ (s : State) (off : Offset) (d : Word),
    (off = 0x000#13 ∨ off = 0x004#13 ∨ off = 0x02C#13
      ∨ (0x030 ≤ off.toNat ∧ off.toNat < 0x1000 ∧ off.toNat % 4 = 0)) →
    busWrite s off .four d = { s with resp := some { resp := .okay, data := 0 } }

/-- R321: exactly the three causes of the rule give an `ERROR` response, with read data 0 and no effect. -/
def Obligations.BusErrorCausesAndEffect : Prop :=
  ∀ (s : State) (off : Offset) (n : BusSize) (d : Word),
    ((off.toNat < 0x1000 ∧ n ≠ .four) ∨ (off.toNat < 0x1000 ∧ off.toNat % 4 ≠ 0)
        ∨ (0x1000 ≤ off.toNat ∧ off.toNat % sizeBytes n ≠ 0) →
      busRead s off n = { s with resp := some { resp := .error, data := 0 } }
        ∧ busWrite s off n d = { s with resp := some { resp := .error, data := 0 } })
    ∧ (¬ ((off.toNat < 0x1000 ∧ n ≠ .four) ∨ (off.toNat < 0x1000 ∧ off.toNat % 4 ≠ 0)
        ∨ (0x1000 ≤ off.toNat ∧ off.toNat % sizeBytes n ≠ 0)) →
      (readAnswer s off n).resp = .okay
        ∧ (busWrite s off n d).resp = some { resp := .okay, data := 0 })

/-- R64: an aligned access of `DBUF` while idle is little-endian, stays inside `DBUF`, a read changes nothing (R69), and a
write changes the bytes it names and nothing else; a misaligned one is answered `ERROR` and has no effect. -/
def Obligations.DbufAccessIsLittleEndian : Prop :=
  (∀ (s : State) (off : Offset) (n : BusSize) (d : Word), 0x1000 ≤ off.toNat → off.toNat % sizeBytes n ≠ 0 →
      busRead s off n = { s with resp := some { resp := .error, data := 0 } }
        ∧ busWrite s off n d = { s with resp := some { resp := .error, data := 0 } })
  ∧ ∀ (s : State) (off : Offset) (n : BusSize) (d : Word),
    Memory.wf s.dbuf → s.phase = .idle → 0x1000 ≤ off.toNat → off.toNat % sizeBytes n = 0 →
      off.toNat - 0x1000 + sizeBytes n ≤ 4096
        ∧ (readAnswer s off n).resp = .okay
        ∧ busRead s off n = { s with resp := some (readAnswer s off n) }
        ∧ (∀ i, i < 4 → (readAnswer s off n).data.extractLsb' (8 * i) 8
            = if i < sizeBytes n then Memory.readByte s.dbuf (off.toNat - 0x1000 + i) else 0#8)
        ∧ (∀ x, Memory.readByte (busWrite s off n d).dbuf x
            = if off.toNat - 0x1000 ≤ x ∧ x < off.toNat - 0x1000 + sizeBytes n
              then d.extractLsb' (8 * (x - (off.toNat - 0x1000))) 8 else Memory.readByte s.dbuf x)
        ∧ busWrite s off n d
            = { s with dbuf := (busWrite s off n d).dbuf, resp := some { resp := .okay, data := 0 } }

/-- R66: while busy, an aligned read of `DBUF` answers 0 whatever the buffer holds, and an aligned write is dropped,
answered `OKAY`, and sets `WERR`. -/
def Obligations.DbufWhileBusy : Prop :=
  ∀ (s : State) (off : Offset) (n : BusSize) (d : Word),
    s.phase ≠ .idle → 0x1000 ≤ off.toNat → off.toNat % sizeBytes n = 0 →
      readAnswer s off n = { resp := .okay, data := 0 }
        ∧ busWrite s off n d = { s with werr := true, resp := some { resp := .okay, data := 0 } }

/-- R30: while busy, a write of `CMD`, of an operand register or of `DBUF` is dropped, answered `OKAY`, and sets `WERR`; a
write of `ID`, `CAP`, `OUT_LEN` or a reserved offset does not set it, and neither does one of `CTRL`, which takes effect;
a write of `STATUS` takes effect; registers read as their current values. -/
def Obligations.RegisterWritesWhileBusy : Prop :=
  ∀ (s : State) (off : Offset) (d : Word), s.phase ≠ .idle →
    (off ∈ [0x010#13, 0x014#13, 0x018#13, 0x01C#13, 0x020#13, 0x024#13, 0x028#13] →
      busWrite s off .four d = { s with werr := true, resp := some { resp := .okay, data := 0 } })
    ∧ (off = 0x008#13 →
      busWrite s off .four d = { s with ie := d.getLsbD 0, resp := some { resp := .okay, data := 0 } })
    ∧ (off = 0x00C#13 →
      busWrite s off .four d
        = { s with done := s.done && !d.getLsbD 1, werr := s.werr && !d.getLsbD 2,
                   resp := some { resp := .okay, data := 0 } })
    ∧ (off = 0x000#13 ∨ off = 0x004#13 ∨ off = 0x02C#13
        ∨ (0x030 ≤ off.toNat ∧ off.toNat < 0x1000 ∧ off.toNat % 4 = 0) →
      busWrite s off .four d = { s with resp := some { resp := .okay, data := 0 } })
    ∧ (∀ n, 0x1000 ≤ off.toNat → off.toNat % sizeBytes n = 0 →
      busWrite s off n d = { s with werr := true, resp := some { resp := .okay, data := 0 } })
    ∧ ∀ r, off.toNat < 0x1000 → regAt off.toNat = some r →
      readAnswer s off .four = { resp := .okay, data := regRead s r }

/-- R25: a write of `CTRL` stores `IE` and nothing else, at once, whether or not a command runs, and never sets `WERR`;
`CTRL` then reads as that bit, and `IRQ` is asserted while `IE` and `DONE` are 1. -/
def Obligations.CtrlWriteStoresInterruptEnable : Prop :=
  ∀ (s : State) (w : Word),
    busWrite s 0x008#13 .four w = { s with ie := w.getLsbD 0, resp := some { resp := .okay, data := 0 } }
      ∧ regRead (busWrite s 0x008#13 .four w) .ctrl = w &&& 1#32
      ∧ (irq s = true ↔ s.ie = true ∧ s.done = true)
      ∧ regRead State.reset .ctrl = 0

/-- R26, R33: the bits of `STATUS`. -/
def Obligations.StatusBits : Prop :=
  ∀ s : State,
    (statusWord s).getLsbD 0 = decide (s.phase ≠ .idle)
      ∧ (statusWord s).getLsbD 1 = s.done
      ∧ (statusWord s).getLsbD 2 = s.werr
      ∧ (statusWord s).getLsbD 3 = decide (s.phase = .waitEnt)
      ∧ (statusWord s).extractLsb' 4 4 = 0#4
      ∧ (statusWord s).extractLsb' 8 4 = codeNumber s.err
      ∧ (statusWord s).extractLsb' 12 20 = 0#20

/-- R27: a write of `STATUS` clears `DONE` and `WERR` where a 1 is written, leaves them where a 0 is, ignores every other
bit, is accepted busy or not, and changes nothing else. -/
def Obligations.StatusWriteOneToClear : Prop :=
  ∀ (s : State) (w : Word),
    busWrite s 0x00C#13 .four w
      = { s with done := if w.getLsbD 1 then false else s.done, werr := if w.getLsbD 2 then false else s.werr,
                 resp := some { resp := .okay, data := 0 } }

/-- R28: `CMD` reads as the last word issued (0 after reset); its write while idle issues any word, legal or not, with
the snapshot of the operand registers; an illegal one completes with `ILLEGAL_CMD`; a write while busy is dropped by
R30. -/
def Obligations.CmdWriteIssues : Prop :=
  (∀ s : State, regRead s .cmd = s.cmd) ∧ regRead State.reset .cmd = 0
    ∧ (∀ (s : State) (w : Word), s.phase = .idle →
      busWrite s 0x010#13 .four w
        = { s with cmd := w, done := false, err := .ok, outLen := 0, lt := { cmd := w, ops := s.ops }, phase := .exec,
                   resp := some { resp := .okay, data := 0 } }
      ∧ busy (busWrite s 0x010#13 .four w) = true
      ∧ (IllegalWord w →
          engineStep (busWrite s 0x010#13 .four w)
            = .next (afterFail (busWrite s 0x010#13 .four w) .illegalCmd)))
    ∧ (∀ (s : State) (w : Word), s.phase ≠ .idle →
      busWrite s 0x010#13 .four w = { s with werr := true, resp := some { resp := .okay, data := 0 } })

/-- R29: while idle each operand register stores every bit written and reads back unchanged, and the write changes
nothing else. -/
def Obligations.OperandRegistersStoreEveryBit : Prop :=
  ∀ (s : State) (w : Word), s.phase = .idle →
    busWrite s 0x014#13 .four w
        = { s with ops := { s.ops with src0Addr := w }, resp := some { resp := .okay, data := 0 } }
      ∧ busWrite s 0x018#13 .four w
        = { s with ops := { s.ops with src0Len := w }, resp := some { resp := .okay, data := 0 } }
      ∧ busWrite s 0x01C#13 .four w
        = { s with ops := { s.ops with src1Addr := w }, resp := some { resp := .okay, data := 0 } }
      ∧ busWrite s 0x020#13 .four w
        = { s with ops := { s.ops with src1Len := w }, resp := some { resp := .okay, data := 0 } }
      ∧ busWrite s 0x024#13 .four w
        = { s with ops := { s.ops with dstAddr := w }, resp := some { resp := .okay, data := 0 } }
      ∧ busWrite s 0x028#13 .four w
        = { s with ops := { s.ops with dstCap := w }, resp := some { resp := .okay, data := 0 } }
      ∧ ∀ off ∈ [0x014#13, 0x018#13, 0x01C#13, 0x020#13, 0x024#13, 0x028#13],
          readAnswer (busWrite s off .four w) off .four = { resp := .okay, data := w }

/-- R38, R369: `IRQ` is `IE and DONE`; from a state of the machine where it is asserted, a step leaves it deasserted
exactly when it performs a write of 1 to `STATUS.DONE`, an issue, a write of 0 to `CTRL.IE`, or reset.  What a step
performs is the head of the model's queue (log entry 1). -/
def Obligations.InterruptClearedOnlyByItsCauses : Prop :=
  (∀ s : State, irq s = (s.ie && s.done))
    ∧ ∀ s t : State, MachineInv s → irq s = true → step s = .next t →
      (irq t = false ↔
        (∃ w, s.env.head? = some (.busWrite 0x00C#13 .four w) ∧ w.getLsbD 1 = true)
          ∨ (∃ w, s.env.head? = some (.busWrite 0x010#13 .four w))
          ∨ (∃ w, s.env.head? = some (.busWrite 0x008#13 .four w) ∧ w.getLsbD 0 = false)
          ∨ s.env.head? = some .reset)

/-- R6, R60, R61: with the window at `BASE`, a multiple of 8192, each of its 8192 bus addresses selects its own offset,
and an address outside it selects none. -/
def Obligations.WindowAddressesSelectOffsets : Prop :=
  Config.base % 8192 = 0
    ∧ (∀ off : Offset, windowOffset (Config.base + off.toNat) = some off)
    ∧ ∀ addr : Nat, addr < Config.base ∨ Config.base + 8192 ≤ addr → windowOffset addr = none

/-! ### Reset -/

/-- R37: the values after reset, as the bus and the outputs show them. -/
def Obligations.ResetValues : Prop :=
  regRead State.reset .id = 0x54430001#32 ∧ regRead State.reset .cap = 0x00081000#32
    ∧ (∀ r ∈ [Reg.ctrl, .status, .cmd, .src0Addr, .src0Len, .src1Addr, .src1Len, .dstAddr, .dstCap, .outLen],
        regRead State.reset r = 0)
    ∧ (∀ a, Memory.readByte State.reset.dbuf a = 0x00#8)
    ∧ State.reset.phase = .idle ∧ irq State.reset = false ∧ entReq State.reset = false

/-- R360, R361: reset, in any phase, is one step to the reset state: the running command writes nothing, sets no `DONE`,
leaves no code, and its entropy request is withdrawn.  The queue of what comes next stays (log entries 1 and 11). -/
def Obligations.ResetFromAnyPhase : Prop :=
  ∀ (s : State) (rest : List Event), s.env = .reset :: rest →
    step s = .next { State.reset with env := rest }

/-! ### The commands -/

/-- R241: CREATE_KEY.  The wait and the answer stand in `phase` and `ent` (log entries 4 and 5). -/
def Obligations.CreateKeyStoresTheAnswer : Prop :=
  decode 0x00000001#32 = .ok .createKey ∧ ∀ s : State,
    (¬ DestinationFits s 16 → exec .createKey s = .next (afterFail s .range))
    ∧ (DestinationFits s 16 →
      (∀ d, s.phase = .waitEnt → s.ent = some (.ok d) →
        exec .createKey s = .next (afterCommit s (entropyBytes d))
          ∧ (afterCommit s (entropyBytes d)).outLen = 16#32
          ∧ ∀ i, i < 16 → (entropyBytes d).getD i 0 = d.extractLsb' (8 * i) 8)
      ∧ (s.phase = .waitEnt → s.ent = some .unavailable →
        exec .createKey s = .next (afterFail s .entropyUnavailable))
      ∧ (s.phase = .exec → exec .createKey s = .next { s with phase := .waitEnt, ent := none }
          ∧ entw { s with phase := .waitEnt, ent := none } = true))

/-- R243, R242: DERIVE_PASSPHRASE_KEY. -/
def Obligations.DerivePassphraseKeyStoresTheKey : Prop :=
  decode 0x00000002#32 = .ok .derivePassphraseKey ∧ ∀ s : State,
    (Source0Inside s → Source1Inside s → s.lt.ops.src1Len.toNat = 16 → DestinationFits s 16 →
      exec .derivePassphraseKey s
          = .next (afterCommit s ((bcryptHash 8 (source1 s) (sha256 (source0 s))).take 16))
        ∧ (afterCommit s ((bcryptHash 8 (source1 s) (sha256 (source0 s))).take 16)).outLen = 16#32)
    ∧ (¬ (Source0Inside s ∧ Source1Inside s) → exec .derivePassphraseKey s = .next (afterFail s .range))
    ∧ (Source0Inside s → Source1Inside s → s.lt.ops.src1Len.toNat ≠ 16 →
      exec .derivePassphraseKey s = .next (afterFail s .invalidSalt))
    ∧ (Source0Inside s → Source1Inside s → s.lt.ops.src1Len.toNat = 16 → ¬ DestinationFits s 16 →
      exec .derivePassphraseKey s = .next (afterFail s .range))

/-- R263: DERIVE_SUBKEYS. -/
def Obligations.DeriveSubkeysStoresTheHash : Prop :=
  decode 0x00000003#32 = .ok .deriveSubkeys ∧ ∀ s : State,
    (Source0Inside s → s.lt.ops.src0Len.toNat = 16 → DestinationFits s 32 →
      exec .deriveSubkeys s = .next (afterCommit s (sha256 (source0 s)))
        ∧ (afterCommit s (sha256 (source0 s))).outLen = 32#32)
    ∧ (¬ Source0Inside s → exec .deriveSubkeys s = .next (afterFail s .range))
    ∧ (Source0Inside s → s.lt.ops.src0Len.toNat ≠ 16 → exec .deriveSubkeys s = .next (afterFail s .inputLength))
    ∧ (Source0Inside s → s.lt.ops.src0Len.toNat = 16 → ¬ DestinationFits s 32 →
      exec .deriveSubkeys s = .next (afterFail s .range))

/-- R260: WRAP_KEY. -/
def Obligations.WrapKeyStoresTheWrappedKey : Prop :=
  decode 0x00000004#32 = .ok .wrapKey ∧ ∀ s : State,
    (Source0Inside s → Source1Inside s → s.lt.ops.src0Len.toNat = 16 → s.lt.ops.src1Len.toNat = 16 →
        DestinationFits s 16 →
      exec .wrapKey s = .next (afterCommit s (encBlock (source0 s) ((source1 s).map (· ^^^ 0x88#8))))
        ∧ (afterCommit s (encBlock (source0 s) ((source1 s).map (· ^^^ 0x88#8)))).outLen = 16#32)
    ∧ (¬ (Source0Inside s ∧ Source1Inside s) → exec .wrapKey s = .next (afterFail s .range))
    ∧ (Source0Inside s → Source1Inside s → (s.lt.ops.src0Len.toNat ≠ 16 ∨ s.lt.ops.src1Len.toNat ≠ 16) →
      exec .wrapKey s = .next (afterFail s .inputLength))
    ∧ (Source0Inside s → Source1Inside s → s.lt.ops.src0Len.toNat = 16 → s.lt.ops.src1Len.toNat = 16 →
        ¬ DestinationFits s 16 → exec .wrapKey s = .next (afterFail s .range))

/-- R261: UNWRAP_KEY. -/
def Obligations.UnwrapKeyStoresTheChild : Prop :=
  decode 0x00000005#32 = .ok .unwrapKey ∧ ∀ s : State,
    (Source0Inside s → Source1Inside s → s.lt.ops.src0Len.toNat = 16 → s.lt.ops.src1Len.toNat = 16 →
        DestinationFits s 16 →
      exec .unwrapKey s = .next (afterCommit s ((decBlock (source0 s) (source1 s)).map (· ^^^ 0x88#8)))
        ∧ (afterCommit s ((decBlock (source0 s) (source1 s)).map (· ^^^ 0x88#8))).outLen = 16#32)
    ∧ (¬ (Source0Inside s ∧ Source1Inside s) → exec .unwrapKey s = .next (afterFail s .range))
    ∧ (Source0Inside s → Source1Inside s → (s.lt.ops.src0Len.toNat ≠ 16 ∨ s.lt.ops.src1Len.toNat ≠ 16) →
      exec .unwrapKey s = .next (afterFail s .inputLength))
    ∧ (Source0Inside s → Source1Inside s → s.lt.ops.src0Len.toNat = 16 → s.lt.ops.src1Len.toNat = 16 →
        ¬ DestinationFits s 16 → exec .unwrapKey s = .next (afterFail s .range))

/-- R285: ENCRYPT, with the version byte, the IV, the CBC ciphertext of the padded plaintext under the cipher subkey, and
the tag of IV and ciphertext under the MAC subkey.  The wait and the answer stand in `phase` and `ent` (log entries 4 and
5). -/
def Obligations.EncryptStoresTheContainer : Prop :=
  decode 0x00000006#32 = .ok .encrypt ∧ ∀ s : State,
    (¬ (Source0Inside s ∧ Source1Inside s) → exec .encrypt s = .next (afterFail s .range))
    ∧ (Source0Inside s → Source1Inside s → s.lt.ops.src0Len.toNat ≠ 32 →
      exec .encrypt s = .next (afterFail s .inputLength))
    ∧ (Source0Inside s → Source1Inside s → s.lt.ops.src0Len.toNat = 32 →
        ¬ DestinationFits s (65 + 16 * (s.lt.ops.src1Len.toNat / 16)) →
      exec .encrypt s = .next (afterFail s .range))
    ∧ (Source0Inside s → Source1Inside s → s.lt.ops.src0Len.toNat = 32 →
        DestinationFits s (65 + 16 * (s.lt.ops.src1Len.toNat / 16)) →
      (∀ d, s.phase = .waitEnt → s.ent = some (.ok d) →
        ∀ c t out, c = cbcEnc ((source0 s).take 16) (entropyBytes d) (pad (source1 s)) →
          t = hmacTag ((source0 s).drop 16) (entropyBytes d ++ c) →
          out = 0x01#8 :: (entropyBytes d ++ c ++ t) →
          exec .encrypt s = .next (afterCommit s out)
            ∧ (afterCommit s out).outLen.toNat = 65 + 16 * (s.lt.ops.src1Len.toNat / 16))
      ∧ (s.phase = .waitEnt → s.ent = some .unavailable →
        exec .encrypt s = .next (afterFail s .entropyUnavailable))
      ∧ (s.phase = .exec → exec .encrypt s = .next { s with phase := .waitEnt, ent := none }
          ∧ entw { s with phase := .waitEnt, ent := none } = true))

/-- R286: DECRYPT, its checks in order, then the tag, the block count and the padding. -/
def Obligations.DecryptVerifiesThenDecrypts : Prop :=
  decode 0x00000007#32 = .ok (.decrypt false) ∧ decode 0x00000107#32 = .ok (.decrypt true) ∧
  ∀ (v : Bool) (s : State) (a : Bytes) (L : Nat), a = source1 s → L = s.lt.ops.src1Len.toNat →
    (¬ (Source0Inside s ∧ Source1Inside s) → exec (.decrypt v) s = .next (afterFail s .range))
    ∧ (Source0Inside s → Source1Inside s →
      (s.lt.ops.src0Len.toNat ≠ 32 → exec (.decrypt v) s = .next (afterFail s .inputLength))
      ∧ (s.lt.ops.src0Len.toNat = 32 → (L < 33 ∨ L % 16 ≠ 1) →
        exec (.decrypt v) s = .next (afterFail s .decryptFail))
      ∧ (s.lt.ops.src0Len.toNat = 32 → ¬ (L < 33 ∨ L % 16 ≠ 1) → v = true → a.getD 0 0 ≠ 0x01#8 →
        exec (.decrypt v) s = .next (afterFail s .decryptFail))
      ∧ (s.lt.ops.src0Len.toNat = 32 → ¬ (L < 33 ∨ L % 16 ≠ 1) → ¬ (v = true ∧ a.getD 0 0 ≠ 0x01#8) →
          ¬ DestinationFits s (if L ≥ 65 then L - 50 else 0) → exec (.decrypt v) s = .next (afterFail s .range))
      ∧ (s.lt.ops.src0Len.toNat = 32 → ¬ (L < 33 ∨ L % 16 ≠ 1) → ¬ (v = true ∧ a.getD 0 0 ≠ 0x01#8) →
          DestinationFits s (if L ≥ 65 then L - 50 else 0) →
        (hmacTag ((source0 s).drop 16) (slice a 1 (L - 32)) ≠ slice a (L - 32) L →
          exec (.decrypt v) s = .next (afterFail s .decryptFail))
        ∧ (L < 65 → exec (.decrypt v) s = .next (afterFail s .decryptFail))
        ∧ (unpad (cbcDec ((source0 s).take 16) (slice a 1 17) (slice a 17 (L - 32))) = none →
          exec (.decrypt v) s = .next (afterFail s .decryptFail))
        ∧ ∀ p, hmacTag ((source0 s).drop 16) (slice a 1 (L - 32)) = slice a (L - 32) L → 65 ≤ L →
          unpad (cbcDec ((source0 s).take 16) (slice a 1 17) (slice a 17 (L - 32))) = some p →
          exec (.decrypt v) s = .next (afterCommit s p) ∧ (afterCommit s p).outLen.toNat = p.length))

/-- R128: SHA256. -/
def Obligations.Sha256StoresTheDigest : Prop :=
  decode 0x00000010#32 = .ok .sha256 ∧ ∀ s : State,
    (Source0Inside s → DestinationFits s 32 →
      exec .sha256 s = .next (afterCommit s (sha256 (source0 s)))
        ∧ (afterCommit s (sha256 (source0 s))).outLen = 32#32)
    ∧ (¬ (Source0Inside s ∧ DestinationFits s 32) → exec .sha256 s = .next (afterFail s .range))

/-- R159: BCRYPT, at cost 8. -/
def Obligations.BcryptStoresTheRawOutput : Prop :=
  decode 0x00000011#32 = .ok .bcrypt ∧ ∀ s : State,
    (¬ (Source0Inside s ∧ Source1Inside s) → exec .bcrypt s = .next (afterFail s .range))
    ∧ (Source0Inside s → Source1Inside s →
      (s.lt.ops.src0Len.toNat < 1 ∨ 72 < s.lt.ops.src0Len.toNat →
        exec .bcrypt s = .next (afterFail s .inputLength))
      ∧ (1 ≤ s.lt.ops.src0Len.toNat → s.lt.ops.src0Len.toNat ≤ 72 → s.lt.ops.src1Len.toNat ≠ 16 →
        exec .bcrypt s = .next (afterFail s .invalidSalt))
      ∧ (1 ≤ s.lt.ops.src0Len.toNat → s.lt.ops.src0Len.toNat ≤ 72 → s.lt.ops.src1Len.toNat = 16 →
          ¬ DestinationFits s 24 → exec .bcrypt s = .next (afterFail s .range))
      ∧ (1 ≤ s.lt.ops.src0Len.toNat → s.lt.ops.src0Len.toNat ≤ 72 → s.lt.ops.src1Len.toNat = 16 →
          DestinationFits s 24 →
        exec .bcrypt s = .next (afterCommit s (bcryptHash 8 (source1 s) (source0 s)))
          ∧ (afterCommit s (bcryptHash 8 (source1 s) (source0 s))).outLen = 24#32))

/-- R187: BLOCK_ENC. -/
def Obligations.BlockEncStoresTheCipherBlock : Prop :=
  decode 0x00000012#32 = .ok .blockEnc ∧ ∀ s : State,
    (Source0Inside s → Source1Inside s → s.lt.ops.src0Len.toNat = 16 → s.lt.ops.src1Len.toNat = 16 →
        DestinationFits s 16 →
      exec .blockEnc s = .next (afterCommit s (encBlock (source0 s) (source1 s)))
        ∧ (afterCommit s (encBlock (source0 s) (source1 s))).outLen = 16#32)
    ∧ (¬ (Source0Inside s ∧ Source1Inside s) → exec .blockEnc s = .next (afterFail s .range))
    ∧ (Source0Inside s → Source1Inside s → (s.lt.ops.src0Len.toNat ≠ 16 ∨ s.lt.ops.src1Len.toNat ≠ 16) →
      exec .blockEnc s = .next (afterFail s .inputLength))
    ∧ (Source0Inside s → Source1Inside s → s.lt.ops.src0Len.toNat = 16 → s.lt.ops.src1Len.toNat = 16 →
        ¬ DestinationFits s 16 → exec .blockEnc s = .next (afterFail s .range))

/-- R188: BLOCK_DEC; it never fails on the block's content. -/
def Obligations.BlockDecStoresThePlainBlock : Prop :=
  decode 0x00000013#32 = .ok .blockDec ∧ ∀ s : State,
    (Source0Inside s → Source1Inside s → s.lt.ops.src0Len.toNat = 16 → s.lt.ops.src1Len.toNat = 16 →
        DestinationFits s 16 →
      exec .blockDec s = .next (afterCommit s (decBlock (source0 s) (source1 s)))
        ∧ (afterCommit s (decBlock (source0 s) (source1 s))).outLen = 16#32)
    ∧ (¬ (Source0Inside s ∧ Source1Inside s) → exec .blockDec s = .next (afterFail s .range))
    ∧ (Source0Inside s → Source1Inside s → (s.lt.ops.src0Len.toNat ≠ 16 ∨ s.lt.ops.src1Len.toNat ≠ 16) →
      exec .blockDec s = .next (afterFail s .inputLength))
    ∧ (Source0Inside s → Source1Inside s → s.lt.ops.src0Len.toNat = 16 → s.lt.ops.src1Len.toNat = 16 →
        ¬ DestinationFits s 16 → exec .blockDec s = .next (afterFail s .range))

/-- R221, R220: HMAC, over the SHA-256 core. -/
def Obligations.HmacStoresTheTag : Prop :=
  decode 0x00000014#32 = .ok .hmac ∧ ∀ (s : State) (k1 k0 tag : Bytes),
    k1 = (if (source0 s).length > 64 then sha256 (source0 s) else source0 s) →
    k0 = k1 ++ List.replicate (64 - k1.length) 0x00#8 →
    tag = sha256 (k0.map (· ^^^ 0x5c#8) ++ sha256 (k0.map (· ^^^ 0x36#8) ++ source1 s)) →
    (Source0Inside s → Source1Inside s → DestinationFits s 32 →
      exec .hmac s = .next (afterCommit s tag) ∧ (afterCommit s tag).outLen = 32#32)
    ∧ (¬ (Source0Inside s ∧ Source1Inside s ∧ DestinationFits s 32) → exec .hmac s = .next (afterFail s .range))

/-- R310: ZEROIZE clears every byte of `DBUF` whatever the operand registers hold, sets the completion state, and leaves
everything else. -/
def Obligations.ZeroizeClearsEveryByte : Prop :=
  decode 0x00000020#32 = .ok .zeroize ∧ ∀ s : State, ∃ t, exec .zeroize s = .next t
    ∧ (∀ a, Memory.readByte t.dbuf a = 0x00#8)
    ∧ t = { s with dbuf := t.dbuf, outLen := 0, err := .ok, done := true, phase := .idle, ent := none }

/-! ### What holds of every command -/

/-- R94, R95, R96, R97, R323: of a command's checks the first that fails decides the code, in the order SRC0 range, SRC1
range, lengths, destination; operands a command does not use are not checked. -/
def Obligations.FirstFailingCheckDecides : Prop :=
  ∀ (i : Instr) (s : State) (a b : Bytes), i ≠ .zeroize →
    a = (if usesSrc0 i then source0 s else []) → b = (if usesSrc1 i then source1 s else []) →
    (usesSrc0 i = true → ¬ Source0Inside s → exec i s = .next (afterFail s .range))
    ∧ ((usesSrc0 i = true → Source0Inside s) → usesSrc1 i = true → ¬ Source1Inside s →
        exec i s = .next (afterFail s .range))
    ∧ ((usesSrc0 i = true → Source0Inside s) → (usesSrc1 i = true → Source1Inside s) →
      (∀ c, lengthChecks i a b = some c → exec i s = .next (afterFail s c))
      ∧ (lengthChecks i a b = none → ¬ DestinationFits s (maxOut i b.length) →
          exec i s = .next (afterFail s .range)))

/-- R324: what a command changes.  It leaves the command word, the operand registers, the snapshot, `IE`, `WERR`, the bus
answer and the inputs still to come; but for ZEROIZE it leaves every byte of `DBUF` outside the `OUT_LEN` bytes at
`DST_ADDR`; a completed command that failed leaves all of `DBUF` and an `OUT_LEN` of 0. -/
def Obligations.CommandFrame : Prop :=
  ∀ (i : Instr) (s t : State), Memory.wf s.dbuf → exec i s = .next t →
    (t.cmd = s.cmd ∧ t.ops = s.ops ∧ t.lt = s.lt ∧ t.ie = s.ie ∧ t.werr = s.werr ∧ t.resp = s.resp ∧ t.env = s.env)
    ∧ (i ≠ .zeroize → ∀ x,
        x < s.lt.ops.dstAddr.toNat ∨ s.lt.ops.dstAddr.toNat + t.outLen.toNat ≤ x →
          Memory.readByte t.dbuf x = Memory.readByte s.dbuf x)
    ∧ (t.phase = .idle → t.done = true)
    ∧ (t.phase = .idle → t.err ≠ .ok → t.dbuf = s.dbuf ∧ t.outLen = 0)

/-- R67, R324, R367: the bytes of `DBUF` after a commit: the output at `DST_ADDR`, every other byte as it was. -/
def Obligations.CommittedOutputStandsAtDestination : Prop :=
  ∀ (s : State) (out : Bytes) (x : Nat), Memory.wf s.dbuf → s.lt.ops.dstAddr.toNat + out.length ≤ 4096 →
    Memory.readByte (afterCommit s out).dbuf x
      = if s.lt.ops.dstAddr.toNat ≤ x ∧ x < s.lt.ops.dstAddr.toNat + out.length
        then out.getD (x - s.lt.ops.dstAddr.toNat) 0 else Memory.readByte s.dbuf x

/-- R322: the numbers of the completion codes, and which commands raise which. -/
def Obligations.CompletionCodesByCommand : Prop :=
  (codeNumber .ok = 0#4 ∧ codeNumber .illegalCmd = 1#4 ∧ codeNumber .range = 2#4 ∧ codeNumber .inputLength = 3#4
      ∧ codeNumber .invalidSalt = 4#4 ∧ codeNumber .entropyUnavailable = 5#4 ∧ codeNumber .decryptFail = 6#4)
    ∧ ∀ (i : Instr) (s t : State), exec i s = .next t → t.phase = .idle →
      t.err ≠ .illegalCmd
        ∧ (t.err = .range → i ≠ .zeroize)
        ∧ (t.err = .inputLength →
            i ∈ [.deriveSubkeys, .wrapKey, .unwrapKey, .encrypt, .decrypt false, .decrypt true, .bcrypt, .blockEnc,
              .blockDec])
        ∧ (t.err = .invalidSalt → i = .derivePassphraseKey ∨ i = .bcrypt)
        ∧ (t.err = .entropyUnavailable → i = .createKey ∨ i = .encrypt)
        ∧ (t.err = .decryptFail → i = .decrypt false ∨ i = .decrypt true)

/-- R94, D28: the operand registers a command does not use have no effect on it. -/
def Obligations.UnusedOperandsIgnored : Prop :=
  ∀ (i : Instr) (s t : State) (ops : OperandRegs),
    (usesSrc0 i = true → ops.src0Addr = s.lt.ops.src0Addr ∧ ops.src0Len = s.lt.ops.src0Len) →
    (usesSrc1 i = true → ops.src1Addr = s.lt.ops.src1Addr ∧ ops.src1Len = s.lt.ops.src1Len) →
    (usesDst i = true → ops.dstAddr = s.lt.ops.dstAddr ∧ ops.dstCap = s.lt.ops.dstCap) →
    exec i s = .next t →
      exec i { s with lt := { s.lt with ops := ops } } = .next { t with lt := { t.lt with ops := ops } }

/-- R288: a DECRYPT that fails, but for `RANGE` and `INPUT_LENGTH`, reports `DECRYPT_FAIL`; no failure writes a byte of
`DBUF`, `OUT_LEN` is 0, and nothing but the code tells one failure from another. -/
def Obligations.DecryptFailureGivesNothing : Prop :=
  ∀ (v : Bool) (s t : State), exec (.decrypt v) s = .next t → t.err ≠ .ok →
    (t.err = .range ∨ t.err = .inputLength ∨ t.err = .decryptFail) ∧ t = afterFail s t.err

/-- R289: containers of 33 and 49 bytes that pass the checks before the tag fail with `DECRYPT_FAIL` whatever their
bytes. -/
def Obligations.ShortContainersFail : Prop :=
  ∀ (v : Bool) (s : State), Source0Inside s → Source1Inside s → s.lt.ops.src0Len.toNat = 32 →
    (s.lt.ops.src1Len.toNat = 33 ∨ s.lt.ops.src1Len.toNat = 49) → DestinationFits s 0 →
    exec (.decrypt v) s = .next (afterFail s .decryptFail)

/-- R287: with `V = 0` the version byte has no effect on the checks or on the result; with `V = 1` a version byte other
than `0x01` fails with `DECRYPT_FAIL` whatever the rest of the container; ENCRYPT writes `0x01`. -/
def Obligations.VersionByteCheckedOnlyWithV : Prop :=
  (∀ (sk rest : Bytes) (x y : Byte), 32 ≤ rest.length →
      lengthChecks (.decrypt false) sk (x :: rest) = lengthChecks (.decrypt false) sk (y :: rest)
        ∧ opened sk (x :: rest) = opened sk (y :: rest))
    ∧ (∀ s : State, Source0Inside s → Source1Inside s → s.lt.ops.src0Len.toNat = 32 → (source1 s).getD 0 0 ≠ 0x01#8 →
      exec (.decrypt true) s = .next (afterFail s .decryptFail))
    ∧ ∀ sk iv p : Bytes, (sealed sk iv p).head? = some 0x01#8

/-! ### Entropy -/

/-- R240 item 1, R96: a command starts to wait only if it is CREATE_KEY or ENCRYPT and its range, length and destination
checks passed. -/
def Obligations.EntropyRequestedOnlyAfterChecks : Prop :=
  ∀ (i : Instr) (s t : State), s.phase ≠ .waitEnt → exec i s = .next t → t.phase = .waitEnt →
    (i = .createKey ∧ DestinationFits s 16)
      ∨ (i = .encrypt ∧ Source0Inside s ∧ Source1Inside s ∧ s.lt.ops.src0Len.toNat = 32
          ∧ DestinationFits s (65 + 16 * (s.lt.ops.src1Len.toNat / 16)))

/-- R371, R240 item 4: a source that never answers leaves a waiting command waiting for ever.  Over every queue of bus
transactions and engine steps, after any number of steps, the phase, `DBUF`, `CMD`, the operand registers, the snapshot
and the invariant are as they were; with nothing to come the whole state is.  A source that never answers is a queue that
holds no answer, and an empty queue is an engine step (log entries 1 and 2). -/
def Obligations.EntropyWaitHasNoTimeout : Prop :=
  ∀ (s : State) (n : Nat), MachineInv s → s.phase = .waitEnt →
    (∀ e ∈ s.env, isTransaction e = true ∨ e = .engine) →
      (∃ t, stepN n s = .next t ∧ t.phase = .waitEnt ∧ t.dbuf = s.dbuf ∧ t.cmd = s.cmd ∧ t.ops = s.ops ∧ t.lt = s.lt
        ∧ MachineInv t)
      ∧ (s.env = [] → stepN n s = .next s)

/-- R240, R371: a waiting command leaves its wait only by an entropy answer or by reset; every other input leaves it
waiting, with `DBUF`, `CMD`, the operand registers and the snapshot as they were.  What a step performs is the head of
the model's queue (log entry 1). -/
def Obligations.WaitEndsOnlyByAnswerOrReset : Prop :=
  ∀ s t : State, MachineInv s → s.phase = .waitEnt → step s = .next t →
    (t.phase = .waitEnt ∧ t.dbuf = s.dbuf ∧ t.cmd = s.cmd ∧ t.ops = s.ops ∧ t.lt = s.lt)
      ∨ s.env.head? = some .reset ∨ ∃ a, s.env.head? = some (.entropy a)

/-- R34, R240, R241, R285: the answer to an outstanding request completes the command in the step it arrives in, and it
is that answer the command uses: CREATE_KEY stores its 16 bytes, ENCRYPT the container whose IV they are; `Unavailable`
fails with its own code.  An answer with no request outstanding changes nothing but the queue.  That the answer and the
completion are one step is the model's choice (log entry 4), and so is ignoring an answer nobody asked for (log entry 6);
the queue is log entry 1's. -/
def Obligations.EntropyAnswerCompletes : Prop :=
  (∀ (s t : State) (a : EntropyAnswer) (rest : List Event), MachineInv s → s.phase = .waitEnt →
    s.env = .entropy a :: rest → step s = .next t →
      t.phase = .idle ∧ t.done = true ∧ t.env = rest
        ∧ (a = .unavailable → t.err = .entropyUnavailable ∧ t.dbuf = s.dbuf ∧ t.outLen = 0)
        ∧ ((∃ d, a = .ok d) → t.err = .ok))
  ∧ (∀ (s : State) (d : BitVec 128) (rest : List Event), MachineInv s → s.phase = .waitEnt →
    s.env = .entropy (.ok d) :: rest →
      (decode s.lt.cmd = .ok .createKey →
        step s = .next (afterCommit { s with env := rest } (entropyBytes d)))
      ∧ (decode s.lt.cmd = .ok .encrypt →
        ∀ c g, c = cbcEnc ((source0 s).take 16) (entropyBytes d) (pad (source1 s)) →
          g = hmacTag ((source0 s).drop 16) (entropyBytes d ++ c) →
          step s = .next (afterCommit { s with env := rest } (0x01#8 :: (entropyBytes d ++ c ++ g)))))
  ∧ (∀ (s : State) (rest : List Event), MachineInv s → s.phase = .waitEnt →
    s.env = .entropy .unavailable :: rest → step s = .next (afterFail { s with env := rest } .entropyUnavailable))
  ∧ ∀ (s : State) (a : EntropyAnswer) (rest : List Event), s.phase ≠ .waitEnt →
    s.env = .entropy a :: rest → step s = .next { s with env := rest }

/-! ### Isolation of a running command -/

/-- R66, R69: while a command runs, no sequence of bus transactions can tell one content of `DBUF` from another: the two
machines go through the same registers, the same answers and the same phase.  The sequence is the model's queue (log
entry 1). -/
def Obligations.BusyHidesDataBuffer : Prop :=
  ∀ (s : State) (m : Memory) (evs : List Event), s.phase ≠ .idle → (∀ e ∈ evs, isTransaction e = true) →
    ∃ u, stepN evs.length { s with env := evs } = .next u
      ∧ stepN evs.length { s with dbuf := m, env := evs } = .next { u with dbuf := m }
      ∧ u.dbuf = s.dbuf ∧ u.phase = s.phase

/-- R67, R72, R365: no sequence of bus transactions after the issue reaches the running command: its completion, or its
entropy answer, gives the same `DBUF`, code, `OUT_LEN`, phase, command word and operand registers as without them.  The
sequence is the model's queue (log entry 1). -/
def Obligations.TransactionsDoNotReachRunningCommand : Prop :=
  ∀ (s : State) (evs : List Event), s.phase ≠ .idle → (∀ e ∈ evs, isTransaction e = true) →
    ∃ u, stepN evs.length { s with env := evs } = .next u
      ∧ (∀ v0, engineStep s = .next v0 → ∃ v, engineStep u = .next v
          ∧ v.dbuf = v0.dbuf ∧ v.err = v0.err ∧ v.outLen = v0.outLen ∧ v.phase = v0.phase ∧ v.cmd = v0.cmd
          ∧ v.ops = v0.ops)
      ∧ ∀ a v0, entropyArrives s a = .next v0 → ∃ v, entropyArrives u a = .next v
          ∧ v.dbuf = v0.dbuf ∧ v.err = v0.err ∧ v.outLen = v0.outLen ∧ v.phase = v0.phase ∧ v.cmd = v0.cmd
          ∧ v.ops = v0.ops

/-! ### The engines -/

/-- R182: the two tables are the S-box of its definition (`y` is the field inverse of `b`, 0 for 0) and its inverse. -/
def Obligations.SboxTablesMeetTheirDefinition : Prop :=
  ∀ b : Byte,
    (∃ y : Byte, (b = 0 → y = 0) ∧ (b ≠ 0 → gfMul b y = 0x01#8)
      ∧ sbox b = y ^^^ y.rotateLeft 1 ^^^ y.rotateLeft 2 ^^^ y.rotateLeft 3 ^^^ y.rotateLeft 4 ^^^ 0x63#8)
    ∧ invSbox (sbox b) = b

/-- R186: for every 16-byte key, `D_K` undoes `E_K` and `E_K` undoes `D_K` on 16-byte blocks. -/
def Obligations.BlockCipherIsABijection : Prop :=
  ∀ k x : Bytes, k.length = 16 → x.length = 16 →
    decBlock k (encBlock k x) = x ∧ encBlock k (decBlock k x) = x

/-- R283, R284: on a string of whole blocks, the strict removal of padding answers `p` exactly when the string is `p`
padded. -/
def Obligations.UnpadAcceptsExactlyPaddedStrings : Prop :=
  ∀ x p : Bytes, x.length % 16 = 0 → (unpad x = some p ↔ x = pad p)

/-- R262: UNWRAP_KEY of what WRAP_KEY stored, under the same parent, stores the child; and WRAP_KEY is injective in the
child. -/
def Obligations.UnwrapUndoesWrap : Prop :=
  (∀ s t u : State, Memory.wf s.dbuf → exec .wrapKey s = .next t → t.err = .ok →
      u.dbuf = t.dbuf → source0 u = source0 s → Source0Inside u →
      u.lt.ops.src1Addr = s.lt.ops.dstAddr → u.lt.ops.src1Len = t.outLen → DestinationFits u 16 →
      exec .unwrapKey u = .next (afterCommit u (source1 s)))
    ∧ ∀ parent c c' : Bytes, parent.length = 16 → c.length = 16 → c'.length = 16 →
      wrapped parent c = wrapped parent c' → c = c'

/-- R290 item 1: DECRYPT, with either `V`, of what ENCRYPT stored, under the same SubKeys, stores the plaintext with code
`OK`, for every entropy answer. -/
def Obligations.DecryptUndoesEncrypt : Prop :=
  ∀ (v : Bool) (s t u : State), Memory.wf s.dbuf → exec .encrypt s = .next t → t.phase = .idle → t.err = .ok →
    u.dbuf = t.dbuf → source0 u = source0 s → Source0Inside u →
    u.lt.ops.src1Addr = s.lt.ops.dstAddr → u.lt.ops.src1Len = t.outLen →
    DestinationFits u (t.outLen.toNat - 50) →
    exec (.decrypt v) u = .next (afterCommit u (source1 s))

/-- R242, L-vectors V6: DERIVE_PASSPHRASE_KEY is the first 16 bytes of the BCRYPT command's output with the passphrase's
digest as key: for equal salts, where `u` holds the digest of the passphrase of `s` as its key. -/
def Obligations.PassphraseKeyIsBcryptPrefix : Prop :=
  ∀ s u : State, Source0Inside s → Source1Inside s → s.lt.ops.src1Len.toNat = 16 → DestinationFits s 16 →
    Source0Inside u → Source1Inside u → DestinationFits u 24 →
    source0 u = sha256 (source0 s) → source1 u = source1 s →
    ∃ out, exec .bcrypt u = .next (afterCommit u out)
      ∧ exec .derivePassphraseKey s = .next (afterCommit s (slice out 0 16))

/-! ### Host programs -/

/-- R99, R364: the transactions of `ISSUE`, performed while idle, leave the command issued with the operands it lists in
its snapshot, and nothing dropped.  The transactions come from the model's queue (log entry 1). -/
def Obligations.IssueExpansionIssuesTheCommand : Prop :=
  ∀ (c : AsmCommand) (s : State), c.wellFormed = true → s.phase = .idle →
    s.env = (expand (.issue c)).map transaction →
    ∃ t, stepN s.env.length s = .next t
      ∧ t.phase = .exec ∧ t.lt = { cmd := encode c.instr, ops := t.ops } ∧ t.cmd = encode c.instr
      ∧ t.werr = s.werr ∧ t.dbuf = s.dbuf ∧ t.env = []
      ∧ (∀ r, c.s0 = some r → t.lt.ops.src0Addr.toNat = r.addr ∧ t.lt.ops.src0Len.toNat = r.len)
      ∧ (∀ r, c.s1 = some r → t.lt.ops.src1Addr.toNat = r.addr ∧ t.lt.ops.src1Len.toNat = r.len)
      ∧ (∀ r, c.d = some r → t.lt.ops.dstAddr.toNat = r.addr ∧ t.lt.ops.dstCap.toNat = r.len)

/-- R99: the transactions of `WBYTES a, B`, performed while idle, leave `B` at `DBUF[a..)` and every other byte as it
was.  The transactions come from the model's queue (log entry 1). -/
def Obligations.WbytesStoresTheString : Prop :=
  ∀ (s : State) (a : Nat) (b : Bytes), Memory.wf s.dbuf → s.phase = .idle → a + b.length ≤ 4096 →
    s.env = (expand (.wbytes a b)).map transaction →
    ∃ t, stepN s.env.length s = .next t ∧ t.phase = .idle ∧ t.env = []
      ∧ ∀ x, Memory.readByte t.dbuf x = if a ≤ x ∧ x < a + b.length then b.getD (x - a) 0 else Memory.readByte s.dbuf x

/-- R99, R325: `ACK` clears `DONE` and `WERR`, so the interrupt is deasserted, and changes nothing else.  The transaction
comes from the model's queue (log entry 1). -/
def Obligations.AckClearsDoneAndWerr : Prop :=
  ∀ s : State, s.env = (expand .ack).map transaction →
    step s = .next { s with done := false, werr := false, resp := some { resp := .okay, data := 0 }, env := [] }
end

