-- ==== Sys2Proof/Laws/Engines.lean ====
section
/-! SUPPORT. The lengths of the engines' results (30_encoding.md R94, column `len(out)`). -/

namespace Sys2Proof.Machine

@[simp] theorem length_slice (b : Bytes) (i j : Nat) : (slice b i j).length = min (j - i) (b.length - i) := by
  simp [slice]

@[simp] theorem length_xorBytes (a b : Bytes) : (xorBytes a b).length = min a.length b.length := by
  simp [xorBytes]

@[simp] theorem length_xorByte (b : Bytes) (v : Byte) : (xorByte b v).length = b.length := by
  simp [xorByte]

@[simp] theorem length_be32Bytes (w : Word) : (be32Bytes w).length = 4 := rfl

@[simp] theorem length_blocksOf (size n : Nat) (b : Bytes) : (blocksOf size n b).length = n := by
  induction n generalizing b with
  | zero => rfl
  | succ n ih => simp [blocksOf, ih]

/-- Every block cut from a string that is long enough has the asked size. -/
theorem length_of_mem_blocksOf {size n : Nat} {b x : Bytes} (hb : size * n ≤ b.length)
    (hx : x ∈ blocksOf size n b) : x.length = size := by
  induction n generalizing b with
  | zero => exact absurd hx (by simp [blocksOf])
  | succ n ih =>
    have hmul : size * (n + 1) = size * n + size := by ring
    rcases List.mem_cons.1 hx with rfl | hx
    · rw [List.length_take]; omega
    · exact ih (by rw [List.length_drop]; omega) hx

@[simp] theorem length_sha256 (m : Bytes) : (sha256 m).length = 32 := by
  simp [sha256, shaOutput]

@[simp] theorem length_hmacTag (k m : Bytes) : (hmacTag k m).length = 32 := by
  simp [hmacTag]

@[simp] theorem length_bcryptHash (cost : Nat) (salt key : Bytes) : (bcryptHash cost salt key).length = 24 := by
  simp [bcryptHash, bcryptText]

@[simp] theorem length_entropyBytes (d : BitVec 128) : (entropyBytes d).length = 16 := by
  simp [entropyBytes]

@[simp] theorem length_passphraseKey (pw salt : Bytes) : (passphraseKey pw salt).length = 16 := by
  simp [passphraseKey]

@[simp] theorem length_subBytes (st : Bytes) : (subBytes st).length = st.length := by simp [subBytes]

@[simp] theorem length_invSubBytes (st : Bytes) : (invSubBytes st).length = st.length := by simp [invSubBytes]

@[simp] theorem length_shiftRows (st : Bytes) : (shiftRows st).length = 16 := by simp [shiftRows]

@[simp] theorem length_invShiftRows (st : Bytes) : (invShiftRows st).length = 16 := by simp [invShiftRows]

@[simp] theorem length_mixColumns (st : Bytes) : (mixColumns st).length = 16 := by
  simp [mixColumns, onColumns, mixColumn]

@[simp] theorem length_invMixColumns (st : Bytes) : (invMixColumns st).length = 16 := by
  simp [invMixColumns, onColumns, invMixColumn]

/-- The key schedule adds one four-byte word at a time. -/
theorem keyExtend_words {n : Nat} {w : List Bytes} (hlen : 4 ≤ w.length) (hw : ∀ x ∈ w, x.length = 4) :
    (keyExtend n w).length = w.length + n ∧ ∀ x ∈ keyExtend n w, x.length = 4 := by
  induction n generalizing w with
  | zero => exact ⟨rfl, hw⟩
  | succ n ih =>
    have hget : ∀ i, i < w.length → (w.getD i []).length = 4 := by
      intro i hi
      rw [List.getD_eq_getElem _ _ hi]
      exact hw _ (List.getElem_mem hi)
    have h4 := hget (w.length - 4) (by omega)
    have h1 := hget (w.length - 1) (by omega)
    have htemp : (keyTemp w.length (w.getD (w.length - 1) [])).length = 4 := by
      unfold keyTemp
      split
      · simp only [length_xorBytes, List.length_map, rotWord, List.length_append, List.length_drop,
          List.length_take, List.length_cons, List.length_nil, h1]
        omega
      · exact h1
    have := ih (w := w ++ [xorBytes (w.getD (w.length - 4) []) (keyTemp w.length (w.getD (w.length - 1) []))])
      (by simp; omega) (by
        intro x hx
        rcases List.mem_append.1 hx with hx | hx
        · exact hw x hx
        · rw [List.mem_singleton.1 hx, length_xorBytes, h4, htemp]; rfl)
    refine ⟨?_, this.2⟩
    rw [keyExtend, this.1]
    simp; omega

theorem keyWords_words {k : Bytes} (hk : k.length = 16) :
    (keyWords k).length = 44 ∧ ∀ x ∈ keyWords k, x.length = 4 := by
  have := keyExtend_words (n := 40) (w := blocksOf 4 4 k) (by simp)
    (fun x hx => length_of_mem_blocksOf (by omega) hx)
  refine ⟨?_, this.2⟩
  rw [keyWords, this.1]
  simp

/-- A round key of a 16-byte key has 16 bytes. -/
theorem length_roundKey {k : Bytes} (hk : k.length = 16) {n : Nat} (hn : n ≤ 10) :
    (roundKey (keyWords k) n).length = 16 := by
  obtain ⟨hl, hw⟩ := keyWords_words hk
  have hget : ∀ i, i < 44 → ((keyWords k).getD i []).length = 4 := by
    intro i hi
    rw [List.getD_eq_getElem _ _ (by omega)]
    exact hw _ (List.getElem_mem (by omega))
  simp only [roundKey, List.length_append]
  rw [hget (4 * n) (by omega), hget (4 * n + 1) (by omega), hget (4 * n + 2) (by omega), hget (4 * n + 3) (by omega)]

theorem length_addRoundKey {k : Bytes} (hk : k.length = 16) {n : Nat} (hn : n ≤ 10) {st : Bytes}
    (hst : st.length = 16) : (addRoundKey (keyWords k) n st).length = 16 := by
  rw [addRoundKey, length_xorBytes, hst, length_roundKey hk hn]
  rfl

theorem length_encRound {k : Bytes} (hk : k.length = 16) {n : Nat} (hn : n ≤ 10) (st : Bytes) :
    (encRound (keyWords k) st n).length = 16 := by
  rw [encRound]
  exact length_addRoundKey hk hn (length_mixColumns _)

theorem length_decRound (w : List Bytes) (st : Bytes) (n : Nat) : (decRound w st n).length = 16 := by
  rw [decRound]
  exact length_invMixColumns _

theorem length_encBlock {k : Bytes} (hk : k.length = 16) (x : Bytes) : (encBlock k x).length = 16 := by
  simp only [encBlock]
  exact length_addRoundKey hk (by omega) (by simp)

theorem length_decBlock {k : Bytes} (hk : k.length = 16) (y : Bytes) : (decBlock k y).length = 16 := by
  simp only [decBlock]
  exact length_addRoundKey hk (by omega) (by simp)

theorem length_wrapped {k : Bytes} (hk : k.length = 16) (c : Bytes) : (wrapped k c).length = 16 :=
  length_encBlock hk _

theorem length_unwrapped {k : Bytes} (hk : k.length = 16) (w : Bytes) : (unwrapped k w).length = 16 := by
  rw [unwrapped, length_xorByte, length_decBlock hk]

theorem length_cbcEncBlocks {k : Bytes} (hk : k.length = 16) (prev : Bytes) (ps : List Bytes) :
    (cbcEncBlocks k prev ps).length = 16 * ps.length := by
  induction ps generalizing prev with
  | nil => rfl
  | cons p ps ih => simp only [cbcEncBlocks, List.length_append, ih, length_encBlock hk, List.length_cons]; omega

theorem length_cbcEnc {k : Bytes} (hk : k.length = 16) (iv p : Bytes) :
    (cbcEnc k iv p).length = 16 * (p.length / 16) := by
  simp [cbcEnc, length_cbcEncBlocks hk]

/-- CBC decryption never gives more bytes than its blocks hold. -/
theorem length_cbcDecBlocks_le {k : Bytes} (hk : k.length = 16) (prev : Bytes) (cs : List Bytes) :
    (cbcDecBlocks k prev cs).length ≤ 16 * cs.length := by
  induction cs generalizing prev with
  | nil => simp [cbcDecBlocks]
  | cons c cs ih =>
    have := ih c
    simp only [cbcDecBlocks, List.length_append, length_xorBytes, length_decBlock hk, List.length_cons]
    omega

theorem length_cbcDec_le {k : Bytes} (hk : k.length = 16) (iv c : Bytes) :
    (cbcDec k iv c).length ≤ 16 * (c.length / 16) := by
  simpa [cbcDec] using length_cbcDecBlocks_le hk iv (blocksOf 16 (c.length / 16) c)

/-- R283: padding brings a string to the next multiple of 16, a full block more when it is one already. -/
@[simp] theorem length_pad (p : Bytes) : (pad p).length = 16 * (p.length / 16) + 16 := by
  simp only [pad, padCount, List.length_append, List.length_replicate]
  omega

/-- R284: removing padding drops at least one byte. -/
theorem length_of_unpad {x p : Bytes} (h : unpad x = some p) : p.length + 1 ≤ x.length := by
  unfold unpad at h
  split at h
  · cases h
  · rename_i hx
    simp only at h
    split at h
    · cases h
    · rename_i hp
      split at h
      · cases h
      · have := Option.some.inj h
        subst this
        simp only [length_slice]
        omega

theorem length_cipherSubkey {sk : Bytes} (h : sk.length = 32) : (cipherSubkey sk).length = 16 := by
  simp [cipherSubkey, h]

/-- R285: the length of an AuthenticatedCiphertext. -/
theorem length_sealed {sk iv : Bytes} (hsk : sk.length = 32) (hiv : iv.length = 16) (p : Bytes) :
    (sealed sk iv p).length = 65 + 16 * (p.length / 16) := by
  simp only [sealed, List.length_append, List.length_cons, length_cbcEnc (length_cipherSubkey hsk), length_pad,
    length_hmacTag, hiv]
  omega

/-- R286: what DECRYPT's body can answer: a plaintext of at most `L - 50` bytes, or `DECRYPT_FAIL`. -/
theorem opened_cases {sk a : Bytes} (hsk : sk.length = 32) :
    (∃ p, opened sk a = .ok p ∧ 65 ≤ a.length ∧ p.length ≤ a.length - 50)
      ∨ opened sk a = .error (.fail .decryptFail) := by
  unfold opened
  simp only
  split
  · exact .inr rfl
  · split
    · exact .inr rfl
    · rename_i hlen
      split
      · exact .inr rfl
      · rename_i p hp
        refine .inl ⟨p, rfl, by omega, ?_⟩
        have h1 := length_of_unpad hp
        have h2 := length_cbcDec_le (length_cipherSubkey hsk) (slice a 1 17) (slice a 17 (a.length - 32))
        simp only [length_slice] at h2
        omega

end Sys2Proof.Machine
end

