-- ==== Sys2Proof/Laws/Memory.lean ====
section
/-! SUPPORT. The laws of the data buffer: read after write, the frame of a write, the canonical form. -/

namespace Sys2Proof.Machine

theorem Memory.wf_cleared : Memory.wf Memory.cleared := ⟨List.Pairwise.nil, fun _ h => nomatch h⟩

theorem Memory.wf_tail {c : Host.Cell} {m : Memory} (h : Memory.wf (c :: m)) : Memory.wf m :=
  ⟨h.1.of_cons, fun d hd => h.2 d (List.mem_cons_of_mem _ hd)⟩

/-- A canonical buffer lists no address below its first cell's. -/
theorem Memory.readByte_below {c : Host.Cell} {m : Memory} (h : Memory.wf (c :: m)) {x : Nat} (hx : x ≤ c.1) :
    Memory.readByte m x = Memory.unlisted := by
  induction m with
  | nil => rfl
  | cons d m ih =>
    have hcd : c.1 < d.1 := (List.pairwise_cons.1 h.1).1 d (by simp)
    have hne : d.1 ≠ x := by omega
    obtain ⟨da, dv⟩ := d
    simp only [Memory.readByte, if_neg hne]
    refine ih ⟨?_, ?_⟩
    · have := h.1
      simp only [List.pairwise_cons] at this ⊢
      exact ⟨fun e he => this.1 e (List.mem_cons_of_mem _ he), this.2.2⟩
    · intro e he
      refine h.2 e ?_
      rcases List.mem_cons.1 he with rfl | he
      · simp
      · simp [he]

/-- No address of `DBUF`'s complement is listed by a canonical buffer. -/
theorem Memory.readByte_outside {m : Memory} (h : Memory.wf m) {x : Nat} (hx : Config.dbufSize ≤ x) :
    Memory.readByte m x = Memory.unlisted := by
  induction m with
  | nil => rfl
  | cons c m ih =>
    obtain ⟨a, v⟩ := c
    have ha : a < Config.dbufSize := (h.2 (a, v) (by simp)).1
    have hne : a ≠ x := by omega
    simp only [Memory.readByte, if_neg hne]
    exact ih (Memory.wf_tail h)

/-- Reading a byte of a canonical buffer after one was written. -/
theorem Memory.readByte_writeByte {m : Memory} (h : Memory.wf m) (x y : Nat) (v : Byte) :
    Memory.readByte (Memory.writeByte m x v) y = if y = x then v else Memory.readByte m y := by
  induction m with
  | nil =>
    by_cases hv : v = Memory.unlisted
    · simp [Memory.writeByte, hv, Memory.readByte]
    · simp [Memory.writeByte, hv, Memory.readByte, eq_comm]
  | cons c m ih =>
    obtain ⟨a, w⟩ := c
    have hlow : ∀ z, z ≤ a → Memory.readByte m z = Memory.unlisted := fun z hz => Memory.readByte_below h hz
    simp only [Memory.writeByte]
    split
    · rename_i hxa
      split
      · rename_i hv
        by_cases hyx : y = x
        · subst hyx
          simp [Memory.readByte, hv, Nat.ne_of_gt hxa, hlow y (by omega)]
        · simp [hyx]
      · simp [Memory.readByte, eq_comm]
    · rename_i hxa
      split
      · rename_i heq
        subst heq
        split
        · rename_i hv
          by_cases hyx : y = x
          · simp [hyx, hv, hlow x (le_refl x)]
          · simp [hyx, Memory.readByte, Ne.symm hyx]
        · by_cases hyx : y = x
          · simp [hyx, Memory.readByte]
          · simp [hyx, Memory.readByte, Ne.symm hyx]
      · rename_i hne
        simp only [Memory.readByte, ih (Memory.wf_tail h)]
        by_cases hya : a = y
        · subst hya
          simp [Ne.symm hne]
        · simp [hya]

/-- Every cell after a write is an old cell or the written one. -/
theorem Memory.mem_writeByte {m : Memory} {x : Nat} {v : Byte} {c : Host.Cell}
    (hc : c ∈ Memory.writeByte m x v) : c ∈ m ∨ (c = (x, v) ∧ v ≠ Memory.unlisted) := by
  induction m with
  | nil =>
    simp only [Memory.writeByte] at hc
    split at hc
    · exact absurd hc (by simp)
    · rename_i hv
      exact .inr ⟨List.mem_singleton.1 hc, hv⟩
  | cons d m ih =>
    obtain ⟨a, w⟩ := d
    simp only [Memory.writeByte] at hc
    split at hc
    · split at hc
      · exact .inl hc
      · rename_i hv
        rcases List.mem_cons.1 hc with rfl | hc
        · exact .inr ⟨rfl, hv⟩
        · exact .inl hc
    · split at hc
      · split at hc
        · exact .inl (List.mem_cons_of_mem _ hc)
        · rename_i hv
          rcases List.mem_cons.1 hc with rfl | hc
          · exact .inr ⟨rfl, hv⟩
          · exact .inl (List.mem_cons_of_mem _ hc)
      · rcases List.mem_cons.1 hc with rfl | hc
        · exact .inl (by simp)
        · rcases ih hc with h | h
          · exact .inl (List.mem_cons_of_mem _ h)
          · exact .inr h

/-- A write inside `DBUF` keeps the canonical form. -/
theorem Memory.wf_writeByte {m : Memory} (h : Memory.wf m) {x : Nat} (hx : x < Config.dbufSize) (v : Byte) :
    Memory.wf (Memory.writeByte m x v) := by
  refine ⟨?_, ?_⟩
  · induction m with
    | nil => simp only [Memory.writeByte]; split <;> simp
    | cons c m ih =>
      obtain ⟨a, w⟩ := c
      have hp := List.pairwise_cons.1 h.1
      simp only [Memory.writeByte]
      split
      · rename_i hxa
        split
        · exact h.1
        · refine List.pairwise_cons.2 ⟨?_, h.1⟩
          intro d hd
          rcases List.mem_cons.1 hd with rfl | hd
          · exact hxa
          · exact lt_trans hxa (hp.1 d hd)
      · rename_i hxa
        split
        · rename_i heq
          subst heq
          split
          · exact hp.2
          · exact List.pairwise_cons.2 ⟨hp.1, hp.2⟩
        · rename_i hne
          refine List.pairwise_cons.2 ⟨?_, ih (Memory.wf_tail h)⟩
          intro d hd
          rcases Memory.mem_writeByte hd with hd | ⟨rfl, -⟩
          · exact hp.1 d hd
          · simp only; omega
  · intro c hc
    rcases Memory.mem_writeByte hc with hc | ⟨rfl, hv⟩
    · exact h.2 c hc
    · exact ⟨hx, hv⟩

@[simp] theorem Memory.length_readBytes (m : Memory) (a n : Nat) : (Memory.readBytes m a n).length = n := by
  induction n generalizing a with
  | zero => rfl
  | succ n ih => simp [Memory.readBytes, ih]

/-- The `i`-th byte of a region. -/
theorem Memory.getElem_readBytes (m : Memory) (a n i : Nat) (h : i < (Memory.readBytes m a n).length) :
    (Memory.readBytes m a n)[i] = Memory.readByte m (a + i) := by
  induction n generalizing a i with
  | zero => simp [Memory.readBytes] at h
  | succ n ih =>
    cases i with
    | zero => rfl
    | succ i =>
      simp only [Memory.readBytes, List.getElem_cons_succ, ih]
      congr 1
      omega

/-- A region depends on its bytes only. -/
theorem Memory.readBytes_congr {m m' : Memory} {a n : Nat}
    (h : ∀ x, a ≤ x → x < a + n → Memory.readByte m x = Memory.readByte m' x) :
    Memory.readBytes m a n = Memory.readBytes m' a n := by
  induction n generalizing a with
  | zero => rfl
  | succ n ih =>
    simp only [Memory.readBytes]
    rw [h a (le_refl a) (by omega), ih fun x h1 h2 => h x (by omega) (by omega)]

/-- A string written inside `DBUF` keeps the canonical form. -/
theorem Memory.wf_writeBytes {m : Memory} (h : Memory.wf m) {a : Nat} {b : Bytes}
    (hb : a + b.length ≤ Config.dbufSize) : Memory.wf (Memory.writeBytes m a b) := by
  induction b generalizing m a with
  | nil => exact h
  | cons v b ih =>
    simp only [List.length_cons] at hb
    exact ih (Memory.wf_writeByte h (by omega) v) (by omega)

/-- Reading a byte of a canonical buffer after a string was written: the string's byte inside, the old byte outside. -/
theorem Memory.readByte_writeBytes {m : Memory} (h : Memory.wf m) {a : Nat} {b : Bytes}
    (hb : a + b.length ≤ Config.dbufSize) (x : Nat) :
    Memory.readByte (Memory.writeBytes m a b) x
      = if a ≤ x ∧ x < a + b.length then b.getD (x - a) 0 else Memory.readByte m x := by
  induction b generalizing m a with
  | nil => simp [Memory.writeBytes, show ¬ (a ≤ x ∧ x < a) from by omega]
  | cons v b ih =>
    simp only [List.length_cons] at hb ⊢
    rw [Memory.writeBytes, ih (Memory.wf_writeByte h (by omega) v) (by omega), Memory.readByte_writeByte h]
    by_cases hx : x = a
    · subst hx
      simp [show ¬ (x + 1 ≤ x) from by omega]
    · by_cases hin : a + 1 ≤ x ∧ x < a + 1 + b.length
      · rw [if_pos hin, if_pos (by omega)]
        obtain ⟨k, hk⟩ : ∃ k, x - a = k + 1 := ⟨x - a - 1, by omega⟩
        rw [hk, show x - (a + 1) = k from by omega]
        rfl
      · rw [if_neg hin, if_neg hx, if_neg (by omega)]

/-- Reading back a string right after it was written. -/
theorem Memory.readBytes_writeBytes {m : Memory} (h : Memory.wf m) {a : Nat} {b : Bytes}
    (hb : a + b.length ≤ Config.dbufSize) : Memory.readBytes (Memory.writeBytes m a b) a b.length = b := by
  refine List.ext_getElem (by simp) fun i h1 h2 => ?_
  rw [Memory.getElem_readBytes, Memory.readByte_writeBytes h hb, if_pos (by omega),
    show a + i - a = i from by omega, List.getD_eq_getElem _ _ h2]

/-- Canonical buffers with the same bytes are equal data. -/
theorem Memory.ext_of_wf {m m' : Memory} (h : Memory.wf m) (h' : Memory.wf m')
    (heq : ∀ x, Memory.readByte m x = Memory.readByte m' x) : m = m' := by
  induction m generalizing m' with
  | nil =>
    cases m' with
    | nil => rfl
    | cons c m' =>
      obtain ⟨a, v⟩ := c
      have := heq a
      simp only [Memory.readByte, if_true] at this
      exact absurd this.symm (h'.2 (a, v) (by simp)).2
  | cons c m ih =>
    obtain ⟨a, v⟩ := c
    have hv : v ≠ Memory.unlisted := (h.2 (a, v) (by simp)).2
    cases m' with
    | nil =>
      have := heq a
      simp only [Memory.readByte, if_true] at this
      exact absurd this hv
    | cons c' m' =>
      obtain ⟨a', v'⟩ := c'
      have hv' : v' ≠ Memory.unlisted := (h'.2 (a', v') (by simp)).2
      have haa : a = a' := by
        rcases Nat.lt_trichotomy a a' with hlt | heq' | hlt
        · have := heq a
          simp only [Memory.readByte, if_true, if_neg (Nat.ne_of_gt hlt),
            Memory.readByte_below h' (le_of_lt hlt)] at this
          exact absurd this hv
        · exact heq'
        · have := heq a'
          simp only [Memory.readByte, if_true, if_neg (Nat.ne_of_gt hlt),
            Memory.readByte_below h (le_of_lt hlt)] at this
          exact absurd this.symm hv'
      subst haa
      have hvv : v = v' := by simpa [Memory.readByte] using heq a
      subst hvv
      congr 1
      refine ih (Memory.wf_tail h) (Memory.wf_tail h') fun x => ?_
      by_cases hx : x ≤ a
      · rw [Memory.readByte_below h hx, Memory.readByte_below h' hx]
      · have := heq x
        simpa only [Memory.readByte, if_neg (show ¬ a = x from by omega)] using this

end Sys2Proof.Machine
end

