-- ==== Sys2Proof/Laws/State.lean ====
section
/-! SUPPORT. One lemma per field of State per record update, so that no later proof unfolds an update. -/

namespace Sys2Proof.Machine

@[simp] theorem complete_ie (s : State) (c : Code) : (complete s c).ie = s.ie := rfl
@[simp] theorem complete_done (s : State) (c : Code) : (complete s c).done = true := rfl
@[simp] theorem complete_werr (s : State) (c : Code) : (complete s c).werr = s.werr := rfl
@[simp] theorem complete_err (s : State) (c : Code) : (complete s c).err = c := rfl
@[simp] theorem complete_cmd (s : State) (c : Code) : (complete s c).cmd = s.cmd := rfl
@[simp] theorem complete_ops (s : State) (c : Code) : (complete s c).ops = s.ops := rfl
@[simp] theorem complete_outLen (s : State) (c : Code) : (complete s c).outLen = s.outLen := rfl
@[simp] theorem complete_dbuf (s : State) (c : Code) : (complete s c).dbuf = s.dbuf := rfl
@[simp] theorem complete_phase (s : State) (c : Code) : (complete s c).phase = .idle := rfl
@[simp] theorem complete_lt (s : State) (c : Code) : (complete s c).lt = s.lt := rfl
@[simp] theorem complete_ent (s : State) (c : Code) : (complete s c).ent = none := rfl
@[simp] theorem complete_resp (s : State) (c : Code) : (complete s c).resp = s.resp := rfl
@[simp] theorem complete_env (s : State) (c : Code) : (complete s c).env = s.env := rfl

@[simp] theorem failCmd_ie (s : State) (c : Code) : (failCmd s c).ie = s.ie := rfl
@[simp] theorem failCmd_done (s : State) (c : Code) : (failCmd s c).done = true := rfl
@[simp] theorem failCmd_werr (s : State) (c : Code) : (failCmd s c).werr = s.werr := rfl
@[simp] theorem failCmd_err (s : State) (c : Code) : (failCmd s c).err = c := rfl
@[simp] theorem failCmd_cmd (s : State) (c : Code) : (failCmd s c).cmd = s.cmd := rfl
@[simp] theorem failCmd_ops (s : State) (c : Code) : (failCmd s c).ops = s.ops := rfl
@[simp] theorem failCmd_outLen (s : State) (c : Code) : (failCmd s c).outLen = 0 := rfl
@[simp] theorem failCmd_dbuf (s : State) (c : Code) : (failCmd s c).dbuf = s.dbuf := rfl
@[simp] theorem failCmd_phase (s : State) (c : Code) : (failCmd s c).phase = .idle := rfl
@[simp] theorem failCmd_lt (s : State) (c : Code) : (failCmd s c).lt = s.lt := rfl
@[simp] theorem failCmd_ent (s : State) (c : Code) : (failCmd s c).ent = none := rfl
@[simp] theorem failCmd_resp (s : State) (c : Code) : (failCmd s c).resp = s.resp := rfl
@[simp] theorem failCmd_env (s : State) (c : Code) : (failCmd s c).env = s.env := rfl

@[simp] theorem issue_ie (s : State) (w : Word) : (issue s w).ie = s.ie := rfl
@[simp] theorem issue_done (s : State) (w : Word) : (issue s w).done = false := rfl
@[simp] theorem issue_werr (s : State) (w : Word) : (issue s w).werr = s.werr := rfl
@[simp] theorem issue_err (s : State) (w : Word) : (issue s w).err = .ok := rfl
@[simp] theorem issue_cmd (s : State) (w : Word) : (issue s w).cmd = w := rfl
@[simp] theorem issue_ops (s : State) (w : Word) : (issue s w).ops = s.ops := rfl
@[simp] theorem issue_outLen (s : State) (w : Word) : (issue s w).outLen = 0 := rfl
@[simp] theorem issue_dbuf (s : State) (w : Word) : (issue s w).dbuf = s.dbuf := rfl
@[simp] theorem issue_phase (s : State) (w : Word) : (issue s w).phase = .exec := rfl
@[simp] theorem issue_lt (s : State) (w : Word) : (issue s w).lt = { cmd := w, ops := s.ops } := rfl
@[simp] theorem issue_ent (s : State) (w : Word) : (issue s w).ent = s.ent := rfl
@[simp] theorem issue_resp (s : State) (w : Word) : (issue s w).resp = s.resp := rfl
@[simp] theorem issue_env (s : State) (w : Word) : (issue s w).env = s.env := rfl

@[simp] theorem acknowledge_ie (s : State) (w : Word) : (acknowledge s w).ie = s.ie := rfl
@[simp] theorem acknowledge_done (s : State) (w : Word) : (acknowledge s w).done = (s.done && !w.getLsbD 1) := rfl
@[simp] theorem acknowledge_werr (s : State) (w : Word) : (acknowledge s w).werr = (s.werr && !w.getLsbD 2) := rfl
@[simp] theorem acknowledge_err (s : State) (w : Word) : (acknowledge s w).err = s.err := rfl
@[simp] theorem acknowledge_cmd (s : State) (w : Word) : (acknowledge s w).cmd = s.cmd := rfl
@[simp] theorem acknowledge_ops (s : State) (w : Word) : (acknowledge s w).ops = s.ops := rfl
@[simp] theorem acknowledge_outLen (s : State) (w : Word) : (acknowledge s w).outLen = s.outLen := rfl
@[simp] theorem acknowledge_dbuf (s : State) (w : Word) : (acknowledge s w).dbuf = s.dbuf := rfl
@[simp] theorem acknowledge_phase (s : State) (w : Word) : (acknowledge s w).phase = s.phase := rfl
@[simp] theorem acknowledge_lt (s : State) (w : Word) : (acknowledge s w).lt = s.lt := rfl
@[simp] theorem acknowledge_ent (s : State) (w : Word) : (acknowledge s w).ent = s.ent := rfl
@[simp] theorem acknowledge_resp (s : State) (w : Word) : (acknowledge s w).resp = s.resp := rfl
@[simp] theorem acknowledge_env (s : State) (w : Word) : (acknowledge s w).env = s.env := rfl

@[simp] theorem dropWrite_ie (s : State) : (dropWrite s).ie = s.ie := rfl
@[simp] theorem dropWrite_done (s : State) : (dropWrite s).done = s.done := rfl
@[simp] theorem dropWrite_werr (s : State) : (dropWrite s).werr = true := rfl
@[simp] theorem dropWrite_err (s : State) : (dropWrite s).err = s.err := rfl
@[simp] theorem dropWrite_cmd (s : State) : (dropWrite s).cmd = s.cmd := rfl
@[simp] theorem dropWrite_ops (s : State) : (dropWrite s).ops = s.ops := rfl
@[simp] theorem dropWrite_outLen (s : State) : (dropWrite s).outLen = s.outLen := rfl
@[simp] theorem dropWrite_dbuf (s : State) : (dropWrite s).dbuf = s.dbuf := rfl
@[simp] theorem dropWrite_phase (s : State) : (dropWrite s).phase = s.phase := rfl
@[simp] theorem dropWrite_lt (s : State) : (dropWrite s).lt = s.lt := rfl
@[simp] theorem dropWrite_ent (s : State) : (dropWrite s).ent = s.ent := rfl
@[simp] theorem dropWrite_resp (s : State) : (dropWrite s).resp = s.resp := rfl
@[simp] theorem dropWrite_env (s : State) : (dropWrite s).env = s.env := rfl

@[simp] theorem requestEntropy_ie (s : State) : (requestEntropy s).ie = s.ie := rfl
@[simp] theorem requestEntropy_done (s : State) : (requestEntropy s).done = s.done := rfl
@[simp] theorem requestEntropy_werr (s : State) : (requestEntropy s).werr = s.werr := rfl
@[simp] theorem requestEntropy_err (s : State) : (requestEntropy s).err = s.err := rfl
@[simp] theorem requestEntropy_cmd (s : State) : (requestEntropy s).cmd = s.cmd := rfl
@[simp] theorem requestEntropy_ops (s : State) : (requestEntropy s).ops = s.ops := rfl
@[simp] theorem requestEntropy_outLen (s : State) : (requestEntropy s).outLen = s.outLen := rfl
@[simp] theorem requestEntropy_dbuf (s : State) : (requestEntropy s).dbuf = s.dbuf := rfl
@[simp] theorem requestEntropy_phase (s : State) : (requestEntropy s).phase = .waitEnt := rfl
@[simp] theorem requestEntropy_lt (s : State) : (requestEntropy s).lt = s.lt := rfl
@[simp] theorem requestEntropy_ent (s : State) : (requestEntropy s).ent = none := rfl
@[simp] theorem requestEntropy_resp (s : State) : (requestEntropy s).resp = s.resp := rfl
@[simp] theorem requestEntropy_env (s : State) : (requestEntropy s).env = s.env := rfl

@[simp] theorem busRead_ie (s : State) (off : Offset) (n : BusSize) : (busRead s off n).ie = s.ie := rfl
@[simp] theorem busRead_done (s : State) (off : Offset) (n : BusSize) : (busRead s off n).done = s.done := rfl
@[simp] theorem busRead_werr (s : State) (off : Offset) (n : BusSize) : (busRead s off n).werr = s.werr := rfl
@[simp] theorem busRead_err (s : State) (off : Offset) (n : BusSize) : (busRead s off n).err = s.err := rfl
@[simp] theorem busRead_cmd (s : State) (off : Offset) (n : BusSize) : (busRead s off n).cmd = s.cmd := rfl
@[simp] theorem busRead_ops (s : State) (off : Offset) (n : BusSize) : (busRead s off n).ops = s.ops := rfl
@[simp] theorem busRead_outLen (s : State) (off : Offset) (n : BusSize) : (busRead s off n).outLen = s.outLen := rfl
@[simp] theorem busRead_dbuf (s : State) (off : Offset) (n : BusSize) : (busRead s off n).dbuf = s.dbuf := rfl
@[simp] theorem busRead_phase (s : State) (off : Offset) (n : BusSize) : (busRead s off n).phase = s.phase := rfl
@[simp] theorem busRead_lt (s : State) (off : Offset) (n : BusSize) : (busRead s off n).lt = s.lt := rfl
@[simp] theorem busRead_ent (s : State) (off : Offset) (n : BusSize) : (busRead s off n).ent = s.ent := rfl
@[simp] theorem busRead_resp (s : State) (off : Offset) (n : BusSize) : (busRead s off n).resp = some (readAnswer s off n) := rfl
@[simp] theorem busRead_env (s : State) (off : Offset) (n : BusSize) : (busRead s off n).env = s.env := rfl

@[simp] theorem afterCommit_ie (s : State) (out : Bytes) : (afterCommit s out).ie = s.ie := rfl
@[simp] theorem afterCommit_done (s : State) (out : Bytes) : (afterCommit s out).done = true := rfl
@[simp] theorem afterCommit_werr (s : State) (out : Bytes) : (afterCommit s out).werr = s.werr := rfl
@[simp] theorem afterCommit_err (s : State) (out : Bytes) : (afterCommit s out).err = .ok := rfl
@[simp] theorem afterCommit_cmd (s : State) (out : Bytes) : (afterCommit s out).cmd = s.cmd := rfl
@[simp] theorem afterCommit_ops (s : State) (out : Bytes) : (afterCommit s out).ops = s.ops := rfl
@[simp] theorem afterCommit_outLen (s : State) (out : Bytes) : (afterCommit s out).outLen = BitVec.ofNat 32 out.length := rfl
@[simp] theorem afterCommit_dbuf (s : State) (out : Bytes) : (afterCommit s out).dbuf = Memory.writeBytes s.dbuf s.lt.ops.dstAddr.toNat out := rfl
@[simp] theorem afterCommit_phase (s : State) (out : Bytes) : (afterCommit s out).phase = .idle := rfl
@[simp] theorem afterCommit_lt (s : State) (out : Bytes) : (afterCommit s out).lt = s.lt := rfl
@[simp] theorem afterCommit_ent (s : State) (out : Bytes) : (afterCommit s out).ent = none := rfl
@[simp] theorem afterCommit_resp (s : State) (out : Bytes) : (afterCommit s out).resp = s.resp := rfl
@[simp] theorem afterCommit_env (s : State) (out : Bytes) : (afterCommit s out).env = s.env := rfl

@[simp] theorem afterFail_ie (s : State) (c : Code) : (afterFail s c).ie = s.ie := rfl
@[simp] theorem afterFail_done (s : State) (c : Code) : (afterFail s c).done = true := rfl
@[simp] theorem afterFail_werr (s : State) (c : Code) : (afterFail s c).werr = s.werr := rfl
@[simp] theorem afterFail_err (s : State) (c : Code) : (afterFail s c).err = c := rfl
@[simp] theorem afterFail_cmd (s : State) (c : Code) : (afterFail s c).cmd = s.cmd := rfl
@[simp] theorem afterFail_ops (s : State) (c : Code) : (afterFail s c).ops = s.ops := rfl
@[simp] theorem afterFail_outLen (s : State) (c : Code) : (afterFail s c).outLen = 0 := rfl
@[simp] theorem afterFail_dbuf (s : State) (c : Code) : (afterFail s c).dbuf = s.dbuf := rfl
@[simp] theorem afterFail_phase (s : State) (c : Code) : (afterFail s c).phase = .idle := rfl
@[simp] theorem afterFail_lt (s : State) (c : Code) : (afterFail s c).lt = s.lt := rfl
@[simp] theorem afterFail_ent (s : State) (c : Code) : (afterFail s c).ent = none := rfl
@[simp] theorem afterFail_resp (s : State) (c : Code) : (afterFail s c).resp = s.resp := rfl
@[simp] theorem afterFail_env (s : State) (c : Code) : (afterFail s c).env = s.env := rfl

@[simp] theorem resetState_ie (s : State) : (resetState s).ie = false := rfl
@[simp] theorem resetState_done (s : State) : (resetState s).done = false := rfl
@[simp] theorem resetState_werr (s : State) : (resetState s).werr = false := rfl
@[simp] theorem resetState_err (s : State) : (resetState s).err = .ok := rfl
@[simp] theorem resetState_cmd (s : State) : (resetState s).cmd = 0 := rfl
@[simp] theorem resetState_ops (s : State) : (resetState s).ops = .zero := rfl
@[simp] theorem resetState_outLen (s : State) : (resetState s).outLen = 0 := rfl
@[simp] theorem resetState_dbuf (s : State) : (resetState s).dbuf = [] := rfl
@[simp] theorem resetState_phase (s : State) : (resetState s).phase = .idle := rfl
@[simp] theorem resetState_lt (s : State) : (resetState s).lt = { cmd := 0, ops := .zero } := rfl
@[simp] theorem resetState_ent (s : State) : (resetState s).ent = none := rfl
@[simp] theorem resetState_resp (s : State) : (resetState s).resp = none := rfl
@[simp] theorem resetState_env (s : State) : (resetState s).env = s.env := rfl

/-- A failure leaves exactly the state R324 describes. -/
@[simp] theorem failCmd_eq_afterFail (s : State) (c : Code) : failCmd s c = afterFail s c := rfl

/-- A register write changes neither the buffer, nor the bus answer, nor the inputs still to come. -/
@[simp] theorem regWrite_dbuf (s : State) (r : Reg) (w : Word) : (regWrite s r w).dbuf = s.dbuf := by
  cases r <;> simp only [regWrite, operandWrite] <;> (try split) <;> rfl

@[simp] theorem regWrite_env (s : State) (r : Reg) (w : Word) : (regWrite s r w).env = s.env := by
  cases r <;> simp only [regWrite, operandWrite] <;> (try split) <;> rfl

@[simp] theorem regWrite_ent (s : State) (r : Reg) (w : Word) : (regWrite s r w).ent = s.ent := by
  cases r <;> simp only [regWrite, operandWrite] <;> (try split) <;> rfl

/-- A write changes no input still to come and no entropy answer. -/
@[simp] theorem busWrite_env (s : State) (off : Offset) (n : BusSize) (d : Word) :
    (busWrite s off n d).env = s.env := by
  unfold busWrite writeEffect
  repeat' split
  all_goals simp

@[simp] theorem busWrite_ent (s : State) (off : Offset) (n : BusSize) (d : Word) :
    (busWrite s off n d).ent = s.ent := by
  unfold busWrite writeEffect
  repeat' split
  all_goals simp

end Sys2Proof.Machine
end

