-- ==== Sys2Proof/Laws/Ops.lean ====
section
/-! SUPPORT. What each shared operation can do, said once: MemRead, MemWrite, the operand checks, the skeleton of a
command, and every command as a whole. -/

namespace Sys2Proof.Machine

theorem memRead_inside {s : State} {a n : Nat} (h : a + n ≤ 4096) :
    memRead s a n = .ok (Memory.readBytes s.dbuf a n) := if_pos h

theorem memWrite_inside {s : State} {a : Nat} {v : Bytes} (h : a + v.length ≤ 4096) :
    memWrite s a v = .ok { s with dbuf := Memory.writeBytes s.dbuf a v } := if_pos h

/-- R324: a commit whose output lies inside `DBUF`. -/
theorem commit_inside {s : State} {out : Bytes} (h : s.lt.ops.dstAddr.toNat + out.length ≤ 4096) :
    commit s s.lt.ops.dstAddr.toNat out = .next (afterCommit s out) := by
  simp only [commit, memWrite_inside h]
  rfl

/-- R95: a used source inside `DBUF` is read. -/
theorem readSource_inside {s : State} {addr len : Word} (h : addr.toNat + len.toNat ≤ 4096) :
    readSource s true addr len = .ok (Memory.readBytes s.dbuf addr.toNat len.toNat) := by
  unfold readSource
  rw [if_pos rfl, if_neg (by simp only [Config.dbufSize]; omega), memRead_inside h]

/-- R95: a used source that leaves `DBUF` fails with `RANGE`. -/
theorem readSource_outside {s : State} {addr len : Word} (h : 4096 < addr.toNat + len.toNat) :
    readSource s true addr len = .error (.fail .range) := by
  unfold readSource
  rw [if_pos rfl, if_pos (by simp only [Config.dbufSize]; omega)]

theorem readSource_unused (s : State) (addr len : Word) : readSource s false addr len = .ok [] := rfl

/-- R95: everything the read of a source can answer. -/
theorem readSource_cases (s : State) (used : Bool) (addr len : Word) :
    (used = true ∧ addr.toNat + len.toNat ≤ 4096
        ∧ readSource s used addr len = .ok (Memory.readBytes s.dbuf addr.toNat len.toNat))
      ∨ (used = true ∧ 4096 < addr.toNat + len.toNat ∧ readSource s used addr len = .error (.fail .range))
      ∨ (used = false ∧ readSource s used addr len = .ok []) := by
  cases used with
  | false => exact .inr (.inr ⟨rfl, rfl⟩)
  | true =>
    by_cases h : addr.toNat + len.toNat ≤ 4096
    · exact .inl ⟨rfl, h, readSource_inside h⟩
    · exact .inr (.inl ⟨rfl, by omega, readSource_outside (by omega)⟩)

/-- R96: the destination check, in the words of the statements. -/
theorem destinationFails_eq_false {s : State} {need : Nat} :
    destinationFails s.lt.ops need = false ↔ DestinationFits s need := by
  simp [destinationFails, DestinationFits, Config.dbufSize]

theorem destinationFails_eq_true {s : State} {need : Nat} :
    destinationFails s.lt.ops need = true ↔ ¬ DestinationFits s need := by
  rw [← destinationFails_eq_false, Bool.not_eq_false]

/-- The source string of a command that uses it, else the empty string. -/
def usedSource0 (i : Instr) (s : State) : Bytes := if usesSrc0 i then source0 s else []

/-- The source string of a command that uses it, else the empty string. -/
def usedSource1 (i : Instr) (s : State) : Bytes := if usesSrc1 i then source1 s else []

/-- R97, steps 2 to 4: everything the operand checks can answer. -/
theorem operands_cases (i : Instr) (s : State) :
    (∃ c, operands i s = .error (.fail c))
      ∨ ((usesSrc0 i = true → Source0Inside s) ∧ (usesSrc1 i = true → Source1Inside s)
        ∧ lengthChecks i (usedSource0 i s) (usedSource1 i s) = none
        ∧ (usesDst i = true → DestinationFits s (maxOut i (usedSource1 i s).length))
        ∧ operands i s = .ok (usedSource0 i s, usedSource1 i s)) := by
  have key : ∀ a b : Bytes, readSource s (usesSrc0 i) s.lt.ops.src0Addr s.lt.ops.src0Len = .ok a →
      readSource s (usesSrc1 i) s.lt.ops.src1Addr s.lt.ops.src1Len = .ok b →
      (∃ c, operands i s = .error (.fail c)) ∨
        (lengthChecks i a b = none ∧ (usesDst i = true → DestinationFits s (maxOut i b.length))
          ∧ operands i s = .ok (a, b)) := by
    intro a b ha hb
    simp only [operands, ha, hb, bind, Except.bind]
    cases hl : lengthChecks i a b with
    | some c => exact .inl ⟨c, rfl⟩
    | none =>
      simp only
      by_cases hd : usesDst i = true ∧ destinationFails s.lt.ops (maxOut i b.length) = true
      · simp [hd.1, hd.2]
      · refine .inr ⟨trivial, fun hu => ?_, ?_⟩
        · exact destinationFails_eq_false.1 (by simpa using fun h => hd ⟨hu, h⟩)
        · rw [if_neg (by simpa using hd)]
  have hs0 : ∀ h : usesSrc0 i = true, usedSource0 i s = source0 s := fun h => if_pos h
  have hs1 : ∀ h : usesSrc1 i = true, usedSource1 i s = source1 s := fun h => if_pos h
  have hn0 : ∀ h : usesSrc0 i = false, usedSource0 i s = [] := fun h => by simp [usedSource0, h]
  have hn1 : ∀ h : usesSrc1 i = false, usedSource1 i s = [] := fun h => by simp [usedSource1, h]
  rcases readSource_cases s (usesSrc0 i) s.lt.ops.src0Addr s.lt.ops.src0Len with
    ⟨hu0, h0, e0⟩ | ⟨hu0, h0, e0⟩ | ⟨hu0, e0⟩
  · rcases readSource_cases s (usesSrc1 i) s.lt.ops.src1Addr s.lt.ops.src1Len with
      ⟨hu1, h1, e1⟩ | ⟨hu1, h1, e1⟩ | ⟨hu1, e1⟩
    · rcases key _ _ e0 e1 with h | ⟨hl, hd, ho⟩
      · exact .inl h
      · right
        rw [hs0 hu0, hs1 hu1]
        exact ⟨fun _ => h0, fun _ => h1, hl, hd, ho⟩
    · left; exact ⟨.range, by simp [operands, e0, e1, bind, Except.bind]⟩
    · rcases key _ _ e0 e1 with h | ⟨hl, hd, ho⟩
      · exact .inl h
      · right
        rw [hs0 hu0, hn1 hu1]
        exact ⟨fun _ => h0, fun h => by simp [hu1] at h, hl, hd, ho⟩
  · left; exact ⟨.range, by simp [operands, e0, bind, Except.bind]⟩
  · rcases readSource_cases s (usesSrc1 i) s.lt.ops.src1Addr s.lt.ops.src1Len with
      ⟨hu1, h1, e1⟩ | ⟨hu1, h1, e1⟩ | ⟨hu1, e1⟩
    · rcases key _ _ e0 e1 with h | ⟨hl, hd, ho⟩
      · exact .inl h
      · right
        rw [hn0 hu0, hs1 hu1]
        exact ⟨fun h => by simp [hu0] at h, fun _ => h1, hl, hd, ho⟩
    · left; exact ⟨.range, by simp [operands, e0, e1, bind, Except.bind]⟩
    · rcases key _ _ e0 e1 with h | ⟨hl, hd, ho⟩
      · exact .inl h
      · right
        rw [hn0 hu0, hn1 hu1]
        exact ⟨fun h => by simp [hu0] at h, fun h => by simp [hu1] at h, hl, hd, ho⟩

/-- R97 step 2, SRC0. -/
theorem operands_src0_outside {i : Instr} {s : State} (h : usesSrc0 i = true) (hn : ¬ Source0Inside s) :
    operands i s = .error (.fail .range) := by
  simp [operands, h, readSource_outside (s := s) (by simpa [Source0Inside] using hn), bind, Except.bind]

theorem readSource0_ok {i : Instr} {s : State} (h : usesSrc0 i = true → Source0Inside s) :
    readSource s (usesSrc0 i) s.lt.ops.src0Addr s.lt.ops.src0Len = .ok (usedSource0 i s) := by
  cases hu : usesSrc0 i
  · simp [usedSource0, hu, readSource_unused]
  · rw [readSource_inside (h hu)]
    simp [usedSource0, hu, source0]

theorem readSource1_ok {i : Instr} {s : State} (h : usesSrc1 i = true → Source1Inside s) :
    readSource s (usesSrc1 i) s.lt.ops.src1Addr s.lt.ops.src1Len = .ok (usedSource1 i s) := by
  cases hu : usesSrc1 i
  · simp [usedSource1, hu, readSource_unused]
  · rw [readSource_inside (h hu)]
    simp [usedSource1, hu, source1]

/-- R97 step 2, SRC1. -/
theorem operands_src1_outside {i : Instr} {s : State} (h0 : usesSrc0 i = true → Source0Inside s)
    (h : usesSrc1 i = true) (hn : ¬ Source1Inside s) : operands i s = .error (.fail .range) := by
  simp [operands, readSource0_ok h0, h, readSource_outside (s := s) (by simpa [Source1Inside] using hn), bind,
    Except.bind]

/-- R97 step 3. -/
theorem operands_wrong_length {i : Instr} {s : State} {c : Code} (h0 : usesSrc0 i = true → Source0Inside s)
    (h1 : usesSrc1 i = true → Source1Inside s) (h : lengthChecks i (usedSource0 i s) (usedSource1 i s) = some c) :
    operands i s = .error (.fail c) := by
  simp [operands, readSource0_ok h0, readSource1_ok h1, h, bind, Except.bind]

/-- R97 step 4. -/
theorem operands_no_room {i : Instr} {s : State} (hu : usesDst i = true) (h0 : usesSrc0 i = true → Source0Inside s)
    (h1 : usesSrc1 i = true → Source1Inside s) (h : lengthChecks i (usedSource0 i s) (usedSource1 i s) = none)
    (hd : ¬ DestinationFits s (maxOut i (usedSource1 i s).length)) : operands i s = .error (.fail .range) := by
  simp [operands, readSource0_ok h0, readSource1_ok h1, h, bind, Except.bind, hu, destinationFails_eq_true.2 hd]

/-- R97 steps 2 to 4 passed. -/
theorem operands_pass {i : Instr} {s : State} (h0 : usesSrc0 i = true → Source0Inside s)
    (h1 : usesSrc1 i = true → Source1Inside s) (h : lengthChecks i (usedSource0 i s) (usedSource1 i s) = none)
    (hd : DestinationFits s (maxOut i (usedSource1 i s).length)) :
    operands i s = .ok (usedSource0 i s, usedSource1 i s) := by
  simp [operands, readSource0_ok h0, readSource1_ok h1, h, bind, Except.bind, destinationFails_eq_false.2 hd]

@[simp] theorem length_source0 (s : State) : (source0 s).length = s.lt.ops.src0Len.toNat := by simp [source0]

@[simp] theorem length_source1 (s : State) : (source1 s).length = s.lt.ops.src1Len.toNat := by simp [source1]

/-- The operand checks see the snapshot and the buffer only. -/
theorem operands_congr {i : Instr} {s t : State} (hlt : s.lt = t.lt) (hdbuf : s.dbuf = t.dbuf) :
    operands i s = operands i t := by
  simp [operands, readSource, memRead, hlt, hdbuf]

/-- R97: everything the outcome of a command's body does to the machine. -/
theorem finish_cases {s t : State} {r : Except Stop Bytes} (h : finish s r = .next t) :
    (∃ out, r = .ok out ∧ s.lt.ops.dstAddr.toNat + out.length ≤ 4096 ∧ t = afterCommit s out)
      ∨ (∃ c, r = .error (.fail c) ∧ t = afterFail s c)
      ∨ (r = .error .waitEntropy ∧ t = requestEntropy s) := by
  match r with
  | .ok out =>
    by_cases hin : s.lt.ops.dstAddr.toNat + out.length ≤ 4096
    · refine .inl ⟨out, rfl, hin, ?_⟩
      simp only [finish, commit_inside hin] at h
      exact (Host.Outcome.next.inj h).symm
    · simp [finish, commit, memWrite, Config.dbufSize, hin] at h
  | .error (.fail c) => exact .inr (.inl ⟨c, rfl, (Host.Outcome.next.inj h).symm⟩)
  | .error .waitEntropy => exact .inr (.inr ⟨rfl, (Host.Outcome.next.inj h).symm⟩)
  | .error (.fault f) => exact nomatch h

/-- A command whose checks pass runs its body on its sources. -/
theorem execute_of_operands {i : Instr} {s : State} {body : Bytes → Bytes → Except Stop Bytes} {a b : Bytes}
    (h : operands i s = .ok (a, b)) : execute i s body = finish s (body a b) := by
  simp [execute, h, bind, Except.bind]

/-- A command whose checks fail completes with the code of the first that fails. -/
theorem execute_of_fail {i : Instr} {s : State} {body : Bytes → Bytes → Except Stop Bytes} {c : Code}
    (h : operands i s = .error (.fail c)) : execute i s body = .next (afterFail s c) := by
  simp [execute, h, bind, Except.bind, finish]

/-- R240: everything the entropy request can answer. -/
theorem getEntropy16_cases (s : State) :
    (∃ d, s.phase = .waitEnt ∧ s.ent = some (.ok d) ∧ getEntropy16 s = .ok (entropyBytes d))
      ∨ (s.phase = .waitEnt ∧ s.ent = some .unavailable ∧ getEntropy16 s = .error (.fail .entropyUnavailable))
      ∨ ((s.phase ≠ .waitEnt ∨ s.ent = none) ∧ getEntropy16 s = .error .waitEntropy) := by
  unfold getEntropy16
  split
  · rename_i d hp he; exact .inl ⟨d, hp, he, rfl⟩
  · rename_i hp he; exact .inr (.inl ⟨hp, he, rfl⟩)
  · rename_i hp he; exact .inr (.inr ⟨.inr he, rfl⟩)
  · rename_i hp; exact .inr (.inr ⟨.inl (by simp [hp]), rfl⟩)
  · rename_i hp; exact .inr (.inr ⟨.inl (by simp [hp]), rfl⟩)

/-- The body of each command, on its two source strings (ZEROIZE has none). -/
def bodyOf (i : Instr) (s : State) (a b : Bytes) : Except Stop Bytes :=
  match i with
  | .createKey => getEntropy16 s
  | .derivePassphraseKey => .ok (passphraseKey a b)
  | .deriveSubkeys => .ok (sha256 a)
  | .wrapKey => .ok (wrapped a b)
  | .unwrapKey => .ok (unwrapped a b)
  | .encrypt => (getEntropy16 s).map fun iv => sealed a iv b
  | .decrypt _ => opened a b
  | .sha256 => .ok (sha256 a)
  | .bcrypt => .ok (bcryptHash Config.bcryptCost b a)
  | .blockEnc => .ok (encBlock a b)
  | .blockDec => .ok (decBlock a b)
  | .hmac => .ok (hmacTag a b)
  | .zeroize => .ok []

/-- Every command but ZEROIZE is the skeleton of R97 around its body. -/
theorem exec_eq_execute {i : Instr} (hi : i ≠ .zeroize) (s : State) :
    exec i s = execute i s (bodyOf i s) := by
  cases i <;> first | rfl | exact absurd rfl hi

/-- What the checks of a command that passed them say. -/
theorem operands_ok {i : Instr} {s : State} {a b : Bytes} (h : operands i s = .ok (a, b)) :
    a = usedSource0 i s ∧ b = usedSource1 i s ∧ (usesSrc0 i = true → Source0Inside s)
      ∧ (usesSrc1 i = true → Source1Inside s) ∧ lengthChecks i a b = none
      ∧ (usesDst i = true → DestinationFits s (maxOut i b.length)) := by
  rcases operands_cases i s with ⟨c, hc⟩ | ⟨h0, h1, hl, hd, ho⟩
  · rw [hc] at h; cases h
  · rw [ho] at h
    cases h
    exact ⟨rfl, rfl, h0, h1, hl, hd⟩

/-- R97 step 5, R94: everything the body of a command whose checks passed can answer: an output of at most `MaxOut`
bytes, a failure, or, for the two commands that ask for entropy and have no answer yet, the wait. -/
theorem bodyOf_cases {i : Instr} {s : State} {a b : Bytes} (ho : operands i s = .ok (a, b)) :
    (∃ out, bodyOf i s a b = .ok out ∧ out.length ≤ maxOut i b.length)
      ∨ (∃ c, bodyOf i s a b = .error (.fail c))
      ∨ ((i = .createKey ∨ i = .encrypt) ∧ (s.phase ≠ .waitEnt ∨ s.ent = none)
          ∧ bodyOf i s a b = .error .waitEntropy) := by
  have hl := (operands_ok ho).2.2.2.2.1
  cases i with
  | createKey =>
    rcases getEntropy16_cases s with ⟨d, -, -, hd⟩ | ⟨-, -, hd⟩ | ⟨hw, hd⟩
    · exact .inl ⟨_, hd, by simp [maxOut, Config.keyLen]⟩
    · exact .inr (.inl ⟨_, hd⟩)
    · exact .inr (.inr ⟨.inl rfl, hw, hd⟩)
  | encrypt =>
    have hsk : a.length = 32 := by
      by_contra hne
      simp [lengthChecks, Config.subkeysLen, hne] at hl
    rcases getEntropy16_cases s with ⟨d, -, -, hd⟩ | ⟨-, -, hd⟩ | ⟨hw, hd⟩
    · refine .inl ⟨sealed a (entropyBytes d) b, by simp [bodyOf, hd, Except.map], ?_⟩
      rw [length_sealed hsk (length_entropyBytes d)]
      exact le_rfl
    · exact .inr (.inl ⟨_, by simp only [bodyOf, hd, Except.map]; rfl⟩)
    · exact .inr (.inr ⟨.inr rfl, hw, by simp only [bodyOf, hd, Except.map]⟩)
  | decrypt v =>
    have hsk : a.length = 32 := by
      by_contra hne
      simp [lengthChecks, Config.subkeysLen, hne] at hl
    rcases opened_cases (a := b) hsk with ⟨p, hp, h65, hlen⟩ | hp
    · exact .inl ⟨p, hp, by simpa only [maxOut, if_pos h65] using hlen⟩
    · exact .inr (.inl ⟨_, hp⟩)
  | wrapKey =>
    have hk : a.length = 16 := by
      by_contra hne
      simp [lengthChecks, Config.keyLen, hne] at hl
    exact .inl ⟨_, rfl, by simp [length_wrapped hk, maxOut, Config.keyLen]⟩
  | unwrapKey =>
    have hk : a.length = 16 := by
      by_contra hne
      simp [lengthChecks, Config.keyLen, hne] at hl
    exact .inl ⟨_, rfl, by simp [length_unwrapped hk, maxOut, Config.keyLen]⟩
  | blockEnc =>
    have hk : a.length = 16 := by
      by_contra hne
      simp [lengthChecks, Config.keyLen, hne] at hl
    exact .inl ⟨_, rfl, by simp [length_encBlock hk, maxOut, Config.blockLen]⟩
  | blockDec =>
    have hk : a.length = 16 := by
      by_contra hne
      simp [lengthChecks, Config.keyLen, hne] at hl
    exact .inl ⟨_, rfl, by simp [length_decBlock hk, maxOut, Config.blockLen]⟩
  | derivePassphraseKey => exact .inl ⟨_, rfl, by simp [maxOut, Config.keyLen]⟩
  | deriveSubkeys => exact .inl ⟨_, rfl, by simp [maxOut, Config.subkeysLen]⟩
  | sha256 => exact .inl ⟨_, rfl, by simp [maxOut]⟩
  | bcrypt => exact .inl ⟨_, rfl, by simp [maxOut, Config.bcryptOutLen]⟩
  | hmac => exact .inl ⟨_, rfl, by simp [maxOut, Config.macLen]⟩
  | zeroize => exact .inl ⟨_, rfl, by simp [maxOut]⟩

/-- What a command can do when it answers a next state: clear the buffer, commit an output that lies inside `DBUF`,
fail, or ask for entropy. -/
theorem exec_cases {i : Instr} {s t : State} (h : exec i s = .next t) :
    (i = .zeroize ∧ t = complete { s with dbuf := Memory.cleared, outLen := 0 } .ok)
      ∨ (i ≠ .zeroize ∧ ∃ a b out, operands i s = .ok (a, b) ∧ bodyOf i s a b = .ok out
          ∧ s.lt.ops.dstAddr.toNat + out.length ≤ 4096 ∧ t = afterCommit s out)
      ∨ (i ≠ .zeroize ∧ ∃ c, t = afterFail s c)
      ∨ (∃ a b, (i = .createKey ∨ i = .encrypt) ∧ operands i s = .ok (a, b) ∧ (s.phase ≠ .waitEnt ∨ s.ent = none)
          ∧ t = requestEntropy s) := by
  by_cases hi : i = .zeroize
  · subst hi
    exact .inl ⟨rfl, (Host.Outcome.next.inj h).symm⟩
  rw [exec_eq_execute hi] at h
  rcases operands_cases i s with ⟨c, hc⟩ | ⟨-, -, -, -, ho⟩
  · rw [execute_of_fail hc] at h
    exact .inr (.inr (.inl ⟨hi, c, (Host.Outcome.next.inj h).symm⟩))
  · rw [execute_of_operands ho] at h
    rcases finish_cases h with ⟨out, hr, hin, ht⟩ | ⟨c, -, ht⟩ | ⟨hr, ht⟩
    · exact .inr (.inl ⟨hi, _, _, out, ho, hr, hin, ht⟩)
    · exact .inr (.inr (.inl ⟨hi, c, ht⟩))
    · rcases bodyOf_cases ho with ⟨out, hb, -⟩ | ⟨c, hb⟩ | ⟨hwho, hw, -⟩
      · rw [hb] at hr; cases hr
      · rw [hb] at hr; cases hr
      · exact .inr (.inr (.inr ⟨_, _, hwho, ho, hw, ht⟩))

/-- R97: a command one of whose checks fails. -/
theorem exec_of_fail {i : Instr} {s : State} {c : Code} (hz : i ≠ .zeroize)
    (h : operands i s = .error (.fail c)) : exec i s = .next (afterFail s c) := by
  rw [exec_eq_execute hz, execute_of_fail h]

/-- R97: a command whose checks pass and whose body gives an output. -/
theorem exec_of_output {i : Instr} {s : State} {a b out : Bytes} (hz : i ≠ .zeroize)
    (h : operands i s = .ok (a, b)) (hb : bodyOf i s a b = .ok out) : exec i s = .next (afterCommit s out) := by
  rw [exec_eq_execute hz, execute_of_operands h, hb]
  rcases bodyOf_cases h with ⟨o, ho, hle⟩ | ⟨c, hc⟩ | ⟨-, -, hc⟩
  · rw [hb] at ho
    cases ho
    have hu : usesDst i = true := by cases i <;> first | rfl | exact absurd rfl hz
    have := ((operands_ok h).2.2.2.2.2 hu).2
    exact commit_inside (by omega)
  · rw [hb] at hc; cases hc
  · rw [hb] at hc; cases hc

/-- R97: a command whose checks pass and whose body fails. -/
theorem exec_of_body_fail {i : Instr} {s : State} {a b : Bytes} {c : Code} (hz : i ≠ .zeroize)
    (h : operands i s = .ok (a, b)) (hb : bodyOf i s a b = .error (.fail c)) :
    exec i s = .next (afterFail s c) := by
  rw [exec_eq_execute hz, execute_of_operands h, hb]
  rfl

/-- R97, R240: a command whose checks pass and that asks for entropy. -/
theorem exec_of_wait {i : Instr} {s : State} {a b : Bytes} (hz : i ≠ .zeroize)
    (h : operands i s = .ok (a, b)) (hb : bodyOf i s a b = .error .waitEntropy) :
    exec i s = .next (requestEntropy s) := by
  rw [exec_eq_execute hz, execute_of_operands h, hb]
  rfl

end Sys2Proof.Machine
end

