-- ==== Sys2Proof/Laws/Bus.lean ====
section
/-! SUPPORT. What a bus transaction can do, said once (20_memory.md R61 to R66). -/

namespace Sys2Proof.Machine

theorem busy_of_phase_ne_idle {s : State} (h : s.phase ≠ .idle) : busy s = true := by
  unfold busy
  cases hp : s.phase <;> simp_all

theorem busy_of_phase_idle {s : State} (h : s.phase = .idle) : busy s = false := by
  simp [busy, h]

/-- R63, R64, R321: the causes of an `ERROR` response. -/
theorem accepted_eq_false {off : Offset} {n : BusSize} :
    accepted off n = false ↔
      (off.toNat < 0x1000 ∧ n ≠ .four) ∨ (off.toNat < 0x1000 ∧ off.toNat % 4 ≠ 0)
        ∨ (0x1000 ≤ off.toNat ∧ off.toNat % sizeBytes n ≠ 0) := by
  unfold accepted
  simp only [dbufOffset]
  by_cases h : off.toNat < 4096
  · by_cases hn : n = .four <;> simp [hn, h]
  · simp [h]
    omega

/-- R22: every register and its offset. -/
theorem regAt_cases {n : Nat} {r : Reg} (h : regAt n = some r) :
    (n = 0x000 ∧ r = .id) ∨ (n = 0x004 ∧ r = .cap) ∨ (n = 0x008 ∧ r = .ctrl) ∨ (n = 0x00C ∧ r = .status)
      ∨ (n = 0x010 ∧ r = .cmd) ∨ (n = 0x014 ∧ r = .src0Addr) ∨ (n = 0x018 ∧ r = .src0Len)
      ∨ (n = 0x01C ∧ r = .src1Addr) ∨ (n = 0x020 ∧ r = .src1Len) ∨ (n = 0x024 ∧ r = .dstAddr)
      ∨ (n = 0x028 ∧ r = .dstCap) ∨ (n = 0x02C ∧ r = .outLen) := by
  unfold regAt at h
  split at h <;> simp_all

/-- R32: the offsets past the registers name none. -/
theorem regAt_reserved {n : Nat} (h : 0x030 ≤ n) : regAt n = none := by
  unfold regAt
  split <;> first | omega | rfl

/-- R30: what a register write while busy leaves as it was. -/
theorem regWrite_while_busy {s : State} {r : Reg} {w : Word} (hp : s.phase ≠ .idle) :
    (regWrite s r w).phase = s.phase ∧ (regWrite s r w).lt = s.lt ∧ (regWrite s r w).cmd = s.cmd
      ∧ (regWrite s r w).ops = s.ops ∧ (regWrite s r w).err = s.err ∧ (regWrite s r w).outLen = s.outLen
      ∧ (regWrite s r w).dbuf = s.dbuf ∧ (regWrite s r w).ent = s.ent
      ∧ (s.done = false → (regWrite s r w).done = false) := by
  have hb := busy_of_phase_ne_idle hp
  cases r <;> simp_all [regWrite, operandWrite]

/-- R30, R66: what a bus write while busy leaves as it was. -/
theorem busWrite_while_busy {s : State} {off : Offset} {n : BusSize} {d : Word} (hp : s.phase ≠ .idle) :
    (busWrite s off n d).phase = s.phase ∧ (busWrite s off n d).lt = s.lt ∧ (busWrite s off n d).cmd = s.cmd
      ∧ (busWrite s off n d).ops = s.ops ∧ (busWrite s off n d).err = s.err ∧ (busWrite s off n d).outLen = s.outLen
      ∧ (busWrite s off n d).dbuf = s.dbuf ∧ (busWrite s off n d).ent = s.ent
      ∧ (s.done = false → (busWrite s off n d).done = false) := by
  have := busy_of_phase_ne_idle hp
  unfold busWrite
  split
  · unfold writeEffect
    split
    · split
      · rename_i r _
        simpa using regWrite_while_busy (r := r) (w := d) hp
      · simp
    · simp
  · simp

/-- A bus write keeps the canonical form of `DBUF`. -/
theorem wf_busWrite {s : State} {off : Offset} {n : BusSize} {d : Word} (h : Memory.wf s.dbuf) :
    Memory.wf (busWrite s off n d).dbuf := by
  unfold busWrite
  split
  · rename_i hacc
    unfold writeEffect
    simp only
    split
    · split
      · rename_i r _
        cases r <;> simp only [regWrite, operandWrite] <;> first | exact h | (split <;> exact h)
      · exact h
    · split
      · exact h
      · rename_i hoff _
        refine Memory.wf_writeBytes h ?_
        simp only [leBytes, List.length_map, List.length_range, Config.dbufSize]
        simp only [accepted, if_neg hoff, decide_eq_true_eq] at hacc
        have := off.isLt
        simp only [dbufOffset] at *
        cases n <;> simp only [sizeBytes] at * <;> omega
  · exact h

/-- A command keeps the canonical form of `DBUF`. -/
theorem wf_exec {i : Instr} {s t : State} (h : Memory.wf s.dbuf) (he : exec i s = .next t) : Memory.wf t.dbuf := by
  rcases exec_cases he with ⟨-, rfl⟩ | ⟨-, a, b, out, -, -, hin, rfl⟩ | ⟨-, c, rfl⟩ | ⟨a, b, -, -, -, rfl⟩
  · exact Memory.wf_cleared
  · exact Memory.wf_writeBytes h hin
  · exact h
  · exact h

end Sys2Proof.Machine
end

