-- ==== Sys2Proof/Laws/PerInstr.lean ====
section
/-! SUPPORT. Laws stated once per command. -/

namespace Sys2Proof.Laws

/-- R90, R91, R93: the reserved bits of a command's word are 0, and its bit 8 is 1 only for DECRYPT with its version
check. -/
def LegalFields.Statement (i : Instr) : Prop :=
  reservedField (encode i) = 0 ∧ (vField (encode i) = true → i = .decrypt true)

theorem LegalFields.createKey : LegalFields.Statement .createKey := ⟨by decide, by decide⟩

theorem LegalFields.derivePassphraseKey : LegalFields.Statement .derivePassphraseKey := ⟨by decide, by decide⟩

theorem LegalFields.deriveSubkeys : LegalFields.Statement .deriveSubkeys := ⟨by decide, by decide⟩

theorem LegalFields.wrapKey : LegalFields.Statement .wrapKey := ⟨by decide, by decide⟩

theorem LegalFields.unwrapKey : LegalFields.Statement .unwrapKey := ⟨by decide, by decide⟩

theorem LegalFields.encrypt : LegalFields.Statement .encrypt := ⟨by decide, by decide⟩

theorem LegalFields.decrypt (v : Bool) : LegalFields.Statement (.decrypt v) := by
  cases v <;> exact ⟨by decide, by decide⟩

theorem LegalFields.sha256 : LegalFields.Statement .sha256 := ⟨by decide, by decide⟩

theorem LegalFields.bcrypt : LegalFields.Statement .bcrypt := ⟨by decide, by decide⟩

theorem LegalFields.blockEnc : LegalFields.Statement .blockEnc := ⟨by decide, by decide⟩

theorem LegalFields.blockDec : LegalFields.Statement .blockDec := ⟨by decide, by decide⟩

theorem LegalFields.hmac : LegalFields.Statement .hmac := ⟨by decide, by decide⟩

theorem LegalFields.zeroize : LegalFields.Statement .zeroize := ⟨by decide, by decide⟩

end Sys2Proof.Laws
end

