-- ==== Sys2Proof/Tests/Slice0.lean ====
section
/-! SUPPORT. Tests: expected values are the spec's (its vectors, examples and tables), and the witnesses of the
statements' hypotheses.  One step each. -/

namespace Sys2Proof.Tests

-- One theorem at a time: the kernel evaluates many of them.
set_option Elab.async false

open Sys2Proof Sys2Proof.Machine

/-! ### Helpers -/

/-- The `n` bytes written as the hexadecimal numeral `v`, byte 0 first. -/
def hex (n v : Nat) : Bytes := (List.range n).map fun i => BitVec.ofNat 8 (v >>> (8 * (n - 1 - i)))

/-- The byte string `I16` of the vectors. -/
def i16 : Bytes := hex 16 0x000102030405060708090a0b0c0d0e0f

/-- The entropy answer whose 16 bytes are `I16` (R240 item 5: byte 0 in bits 7:0). -/
def i16Answer : BitVec 128 := 0x0f0e0d0c0b0a09080706050403020100#128

/-- Operand registers: SRC0 `a0:n0`, SRC1 `a1:n1`, DST `d/c`. -/
def regs (a0 n0 a1 n1 d c : Nat) : OperandRegs :=
  { src0Addr := BitVec.ofNat 32 a0, src0Len := BitVec.ofNat 32 n0, src1Addr := BitVec.ofNat 32 a1,
    src1Len := BitVec.ofNat 32 n1, dstAddr := BitVec.ofNat 32 d, dstCap := BitVec.ofNat 32 c }

/-- The machine with the word `w` issued over operands `o` and data buffer `m`. -/
def issued (w : Word) (o : OperandRegs) (m : Memory) : State :=
  issue { State.reset with ops := o, dbuf := m } w

/-- A command issued over operands `o`, with an all-zero data buffer. -/
def running (i : Instr) (o : OperandRegs) : State := issued (encode i) o []

/-- The harness of the vectors: `a` at `DBUF[0x000..)`, `b` at `DBUF[0x400..)`, `d = 0x800/cap`. -/
def harness (i : Instr) (a b : Bytes) (cap : Nat) : State :=
  issued (encode i) (regs 0 a.length 0x400 b.length 0x800 cap)
    (Memory.writeBytes (Memory.writeBytes [] 0 a) 0x400 b)

/-- The same machine waiting, with an entropy answer on its inputs. -/
def answered (a : EntropyAnswer) (s : State) : State := { s with phase := .waitEnt, ent := some a }

/-- The outcome is a next state that passes the check. -/
def gives (o : Out) (check : State → Bool) : Bool :=
  match o with
  | .next t => check t
  | .fault _ => false
  | .refused _ => false

/-- The outcome is the next state `t`. -/
def goesTo (o : Out) (t : State) : Bool := gives o fun u => u = t

/-- The output of a completed command: its code is `OK` and `DBUF[0x800 .. 0x800 + OUT_LEN)` is `out`. -/
def outputs (out : Bytes) (t : State) : Bool :=
  t.err = .ok && t.done && t.phase = .idle && t.outLen.toNat = out.length
    && Memory.readBytes t.dbuf 0x800 out.length = out

/-- The command failed with `code`: `OUT_LEN` is 0, `DONE` is 1, `DBUF` is as it was in `s`. -/
def failsWith (s : State) (code : Code) (t : State) : Bool :=
  t.err = code && t.done && t.phase = .idle && t.outLen = 0 && t.dbuf = s.dbuf

/-! ### Well-formedness: a command lists exactly the operands its opcode uses (R94, R98) -/

theorem test_wellFormed_example :
    (AsmCommand.mk .sha256 (some ⟨0x100, 32⟩) (some ⟨0, 3⟩) none).wellFormed = true := by decide
theorem test_wellFormed_zeroize : (AsmCommand.mk .zeroize none none none).wellFormed = true := by decide
theorem test_wellFormed_missing_destination :
    (AsmCommand.mk .sha256 none (some ⟨0, 3⟩) none).wellFormed = false := by decide
theorem test_wellFormed_missing_source0 :
    (AsmCommand.mk .sha256 (some ⟨0x100, 32⟩) none none).wellFormed = false := by decide
theorem test_wellFormed_missing_source1 :
    (AsmCommand.mk .hmac (some ⟨0x100, 32⟩) (some ⟨0, 3⟩) none).wellFormed = false := by decide
theorem test_wellFormed_extra_destination :
    (AsmCommand.mk .zeroize (some ⟨0, 16⟩) none none).wellFormed = false := by decide
theorem test_wellFormed_extra_source0 :
    (AsmCommand.mk .createKey (some ⟨0, 16⟩) (some ⟨0, 16⟩) none).wellFormed = false := by decide
theorem test_wellFormed_extra_source1 :
    (AsmCommand.mk .sha256 (some ⟨0x100, 32⟩) (some ⟨0, 3⟩) (some ⟨0, 3⟩)).wellFormed = false := by decide
theorem test_wellFormed_address_too_wide :
    (AsmCommand.mk .createKey (some ⟨2 ^ 32, 16⟩) none none).wellFormed = false := by decide
theorem test_wellFormed_length_too_wide :
    (AsmCommand.mk .createKey (some ⟨0, 2 ^ 32⟩) none none).wellFormed = false := by decide

/-! ### Decoding: words written out from the encodings of R91 (bits 31:9 reserved, bit 8 `V`, bits 7:0 `OPC`) -/

theorem test_decode_createKey : decode 0b00000000000000000000000_0_00000001#32 = .ok .createKey := by rfl
theorem test_decode_derivePassphraseKey :
    decode 0b00000000000000000000000_0_00000010#32 = .ok .derivePassphraseKey := by rfl
theorem test_decode_deriveSubkeys : decode 0b00000000000000000000000_0_00000011#32 = .ok .deriveSubkeys := by rfl
theorem test_decode_wrapKey : decode 0b00000000000000000000000_0_00000100#32 = .ok .wrapKey := by rfl
theorem test_decode_unwrapKey : decode 0b00000000000000000000000_0_00000101#32 = .ok .unwrapKey := by rfl
theorem test_decode_encrypt : decode 0b00000000000000000000000_0_00000110#32 = .ok .encrypt := by rfl
theorem test_decode_decrypt : decode 0b00000000000000000000000_0_00000111#32 = .ok (.decrypt false) := by rfl
theorem test_decode_decrypt_v : decode 0b00000000000000000000000_1_00000111#32 = .ok (.decrypt true) := by rfl
theorem test_decode_sha256 : decode 0b00000000000000000000000_0_00010000#32 = .ok .sha256 := by rfl
theorem test_decode_bcrypt : decode 0b00000000000000000000000_0_00010001#32 = .ok .bcrypt := by rfl
theorem test_decode_blockEnc : decode 0b00000000000000000000000_0_00010010#32 = .ok .blockEnc := by rfl
theorem test_decode_blockDec : decode 0b00000000000000000000000_0_00010011#32 = .ok .blockDec := by rfl
theorem test_decode_hmac : decode 0b00000000000000000000000_0_00010100#32 = .ok .hmac := by rfl
theorem test_decode_zeroize : decode 0b00000000000000000000000_0_00100000#32 = .ok .zeroize := by rfl
theorem test_decode_unassigned : decode 0x00000000#32 = .error .unassignedOpcode := by rfl
theorem test_decode_reserved : decode 0x00000207#32 = .error .reservedBits := by rfl
theorem test_decode_v_elsewhere : decode 0x00000110#32 = .error .versionFlag := by rfl
theorem test_decodeTableWord :
    decodeTableWord 32 0x107 = some (.decrypt true) ∧ decodeTableWord 32 0x15 = none
      ∧ decodeTableWord 64 0x10 = none := by decide

/-- R98's own examples, with the numbers in decimal. -/
theorem test_command_text :
    commandText ⟨.sha256, some ⟨0x100, 32⟩, some ⟨0, 3⟩, none⟩ = "SHA256 d=256/32, s0=0:3"
      ∧ commandText ⟨.decrypt true, some ⟨0x300, 15⟩, some ⟨0x10, 32⟩, some ⟨0x200, 65⟩⟩
        = "DECRYPT.V d=768/15, s0=16:32, s1=512:65"
      ∧ commandText ⟨.zeroize, none, none, none⟩ = "ZEROIZE" := by decide +kernel

/-! ### The engines: the spec's vectors (95_test_vectors.md) and check values -/

/-- V1.2, V1.4 and V1.5: one block, the longest one-block message, the shortest two-block message. -/
theorem test_sha256 :
    sha256 (hex 3 0x616263) = hex 32 0xba7816bf8f01cfea414140de5dae2223b00361a396177a9cb410ff61f20015ad
      ∧ sha256 (List.replicate 55 0x61#8)
        = hex 32 0x9f4390f8d30c2dd92ec9f095b65e2b9ae9b0a925a5258e241c9f1e910f734318
      ∧ sha256 (List.replicate 56 0x61#8)
        = hex 32 0xb35439a4ac6f0948b6d6f9e3c6af0f5f590ce20f1bde7090ef7970686ec6738a := by decide +kernel

/-- V3.6: round key 10 of the key of FIPS 197, Appendix B. -/
theorem test_round_key :
    roundKey (keyWords (hex 16 0x2b7e151628aed2a6abf7158809cf4f3c)) 10
      = hex 16 0xd014f9a8c9ee2589e13f0cc8b6630ca6 := by decide +kernel

/-- V4.3 and V4.4: a key longer than the block is hashed first; both operands empty. -/
theorem test_hmac_keys :
    hmacTag (List.replicate 131 0xaa#8)
        (hex 54 0x54657374205573696e67204c6172676572205468616e20426c6f636b2d53697a65204b6579202d2048617368204b6579204669727374)
        = hex 32 0x60e431591ee0b67f0d8a26aacbf5b77f8e0bc6213728c5140546040f0ee37f54
      ∧ hmacTag [] [] = hex 32 0xb613679a0814d9ec772f95d778c35fc5ff1697c493715653c6c712144292c5ad := by
  decide +kernel

/-- R151: the check values of the initial Blowfish state. -/
theorem test_blowfish_tables :
    bfPInit.length = 18 ∧ bfSInit.length = 1024 ∧ bfPInit.getD 0 0 = 0x243f6a88#32
      ∧ bfPInit.getD 17 0 = 0x8979fb1b#32 ∧ bfSInit.getD 0 0 = 0xd1310ba6#32
      ∧ bfSInit.getD 1023 0 = 0x3ac372e6#32 := by decide +kernel

/-- R154's example: the stream of `616263`. -/
theorem test_stream_words :
    streamWord (hex 3 0x616263) 0 = (0x61626361#32, 1) ∧ streamWord (hex 3 0x616263) 1 = (0x62636162#32, 2)
      ∧ streamWord (hex 3 0x616263) 2 = (0x63616263#32, 0) := by decide +kernel

/-! ### One step of each command: an output of the spec's vectors, and a failure -/

/-- V5.2: the answer's byte 0 is `ent_data[7:0]`. -/
theorem test_createKey :
    gives (exec .createKey (answered (.ok 0xffeeddccbbaa99887766554433221100#128) (harness .createKey [] [] 16)))
      (outputs (hex 16 0x00112233445566778899aabbccddeeff)) = true := by decide +kernel
/-- V5.5: no request is made when the destination check fails. -/
theorem test_createKey_range :
    gives (exec .createKey (running .createKey (regs 0 0 0 0 0xFF8 16)))
      (failsWith (running .createKey (regs 0 0 0 0 0xFF8 16)) .range) = true := by decide +kernel
/-- V6.5: a salt of 15 bytes.  (An output needs 2^8 rounds of the key schedule, too long for a test here.) -/
theorem test_derivePassphraseKey_salt :
    gives (exec .derivePassphraseKey (running .derivePassphraseKey (regs 0 8 16 15 0x800 16)))
      (failsWith (running .derivePassphraseKey (regs 0 8 16 15 0x800 16)) .invalidSalt) = true := by decide +kernel
/-- V8.2. -/
theorem test_deriveSubkeys :
    gives (exec .deriveSubkeys (harness .deriveSubkeys i16 [] 32))
      (outputs (hex 32 0xbe45cb2605bf36bebde684841a28f0fd43c69850a3dce5fedba69928ee3a8991)) = true := by
  decide +kernel
/-- V8.5: a key of 17 bytes. -/
theorem test_deriveSubkeys_length :
    gives (exec .deriveSubkeys (running .deriveSubkeys (regs 0 17 0 0 0x800 32)))
      (failsWith (running .deriveSubkeys (regs 0 17 0 0 0x800 32)) .inputLength) = true := by decide +kernel
/-- V7.4. -/
theorem test_wrapKey :
    gives (exec .wrapKey (harness .wrapKey i16 i16 16))
      (outputs (hex 16 0xeb872d247dea4c7438d353712e6a913e)) = true := by decide +kernel
/-- V7.9: a destination of 15 bytes. -/
theorem test_wrapKey_range :
    gives (exec .wrapKey (running .wrapKey (regs 0 16 16 16 0x800 15)))
      (failsWith (running .wrapKey (regs 0 16 16 16 0x800 15)) .range) = true := by decide +kernel
/-- V7.4u. -/
theorem test_unwrapKey :
    gives (exec .unwrapKey (harness .unwrapKey i16 (hex 16 0xeb872d247dea4c7438d353712e6a913e) 16))
      (outputs i16) = true := by decide +kernel
/-- V7.8: a wrapped key of 17 bytes. -/
theorem test_unwrapKey_length :
    gives (exec .unwrapKey (running .unwrapKey (regs 0 16 16 17 0x800 16)))
      (failsWith (running .unwrapKey (regs 0 16 16 17 0x800 16)) .inputLength) = true := by decide +kernel

/-- The SubKeys `SK` of the vectors V9. -/
def sk9 : Bytes := hex 32 0x374708fff7719dd5979ec875d56cd2286f6d3cf7ec317a3b25632aab28ec37bb

/-- The container of V9.1. -/
def container9 : Bytes :=
  hex 65 0x01000102030405060708090a0b0c0d0e0ff3a395c5d960cdcb756746dedc0e639bc6ed47fc39235ef7fa68dc691b7f4813c0ba03469e52e756a79a476aa856a513

/-- V9.1: ENCRYPT of "abc". -/
theorem test_encrypt :
    gives (exec .encrypt (answered (.ok i16Answer) (harness .encrypt sk9 (hex 3 0x616263) 65))) (outputs container9)
      = true := by decide +kernel
/-- R241, R285: an unavailable source. -/
theorem test_encrypt_unavailable :
    gives (exec .encrypt (answered .unavailable (running .encrypt (regs 0 32 0x400 3 0x800 65))))
      (failsWith (running .encrypt (regs 0 32 0x400 3 0x800 65)) .entropyUnavailable) = true := by decide +kernel
/-- V9.1: DECRYPT.V of the container. -/
theorem test_decrypt_v :
    gives (exec (.decrypt true) (harness (.decrypt true) sk9 container9 15)) (outputs (hex 3 0x616263)) = true := by
  decide +kernel
/-- V9.5: the version byte under DECRYPT.V. -/
theorem test_decrypt_version :
    gives (exec (.decrypt true) (harness (.decrypt true) sk9 (0x00#8 :: container9.drop 1) 15))
      (failsWith (harness (.decrypt true) sk9 (0x00#8 :: container9.drop 1) 15) .decryptFail) = true := by
  decide +kernel
/-- V1.2 as a command. -/
theorem test_sha256_command :
    gives (exec .sha256 (harness .sha256 (hex 3 0x616263) [] 32))
      (outputs (hex 32 0xba7816bf8f01cfea414140de5dae2223b00361a396177a9cb410ff61f20015ad)) = true := by decide +kernel
/-- V1.17: the sum of address and length is not wrapped. -/
theorem test_sha256_range :
    gives (exec .sha256 (running .sha256 (regs 0xFFFFFFF0 0x20 0 0 0x800 32)))
      (failsWith (running .sha256 (regs 0xFFFFFFF0 0x20 0 0 0x800 32)) .range) = true := by decide +kernel
/-- V2.8: a key of 73 bytes. -/
theorem test_bcrypt_key :
    gives (exec .bcrypt (running .bcrypt (regs 0 73 0x400 16 0x800 24)))
      (failsWith (running .bcrypt (regs 0 73 0x400 16 0x800 24)) .inputLength) = true := by decide +kernel
/-- V2.11: the key check comes before the salt check. -/
theorem test_bcrypt_order :
    gives (exec .bcrypt (running .bcrypt (regs 0 0 0x400 15 0x800 24)))
      (failsWith (running .bcrypt (regs 0 0 0x400 15 0x800 24)) .inputLength) = true := by decide +kernel
/-- V3.1, encryption. -/
theorem test_blockEnc :
    gives (exec .blockEnc (harness .blockEnc i16 (hex 16 0x00112233445566778899aabbccddeeff) 16))
      (outputs (hex 16 0x69c4e0d86a7b0430d8cdb78070b4c55a)) = true := by decide +kernel
/-- V3.8. -/
theorem test_blockEnc_length :
    gives (exec .blockEnc (running .blockEnc (regs 0 16 16 15 0x800 16)))
      (failsWith (running .blockEnc (regs 0 16 16 15 0x800 16)) .inputLength) = true := by decide +kernel
/-- V3.1, decryption. -/
theorem test_blockDec :
    gives (exec .blockDec (harness .blockDec i16 (hex 16 0x69c4e0d86a7b0430d8cdb78070b4c55a) 16))
      (outputs (hex 16 0x00112233445566778899aabbccddeeff)) = true := by decide +kernel
/-- V3.9. -/
theorem test_blockDec_length :
    gives (exec .blockDec (running .blockDec (regs 0 16 16 17 0x800 16)))
      (failsWith (running .blockDec (regs 0 16 16 17 0x800 16)) .inputLength) = true := by decide +kernel
/-- V4.1 as a command. -/
theorem test_hmac_command :
    gives (exec .hmac (harness .hmac (List.replicate 20 0x0b#8) (hex 8 0x4869205468657265) 32))
      (outputs (hex 32 0xb0344c61d8db38535ca8afceaf0bf12b881dc200c9833da726e9376c2e32cff7)) = true := by decide +kernel
/-- V4.9: a destination of 31 bytes. -/
theorem test_hmac_range :
    gives (exec .hmac (running .hmac (regs 0 1 1 1 0x800 31)))
      (failsWith (running .hmac (regs 0 1 1 1 0x800 31)) .range) = true := by decide +kernel
/-- R310: every byte is cleared, whatever the operand registers hold. -/
theorem test_zeroize :
    gives (exec .zeroize (issued 0x20#32 (regs 0xFFFFFFFF 0xFFFFFFFF 0 0 0xFFFFFFFF 0) [(0, 1#8), (4095, 0xff#8)]))
      (fun t => t.dbuf = [] && t.err = .ok && t.done && t.outLen = 0 && t.phase = .idle) = true := by decide +kernel

/-! ### Bus transactions: values of the vectors V12 and P4 -/

/-- R64: little-endian data. -/
theorem test_dbuf_little_endian :
    Memory.readBytes (busWrite State.reset 0x1000#13 .four 0x44332211#32).dbuf 0 4 = hex 4 0x11223344
      ∧ readAnswer (busWrite State.reset 0x1FFC#13 .four 0x01020304#32) 0x1FFE#13 .two
        = { resp := .okay, data := 0x0102#32 } := by decide +kernel
/-- R26: `STATUS` of a command waiting for entropy is 9, of one that failed with code 5 is 0x502. -/
theorem test_status :
    statusWord { State.reset with phase := .waitEnt } = 0x00000009#32
      ∧ statusWord (afterFail State.reset .entropyUnavailable) = 0x00000502#32 := by decide +kernel
/-- R99: WAIT goes on reading `STATUS` while `BUSY` is 1 (P4's 9) and ends when it is 0. -/
theorem test_wait :
    hostAdvance (expand .wait) (some { resp := .okay, data := 0x00000009#32 }) = expand .wait
      ∧ hostAdvance (expand .wait) (some { resp := .okay, data := 0x00000002#32 }) = [] := by decide
/-- The word placed where the machine fetches runs in the next step. -/
theorem test_withFetchWord :
    gives (step (State.reset.withFetchWord 32 0x00000020))
      (fun t => t.done && t.err = .ok && t.cmd = 0x20#32 && t.env = []) = true := by decide +kernel

/-! ### Witnesses: states and operands that meet the hypotheses of the statements, at the ends of their ranges -/

/-- CREATE_KEY waiting for the source. -/
def waiting : State := { running .createKey (regs 0 0 0 0 0x800 16) with phase := .waitEnt }

/-- ENCRYPT right after its issue, with a plaintext of 15 bytes and a destination that ends with `DBUF`. -/
def encrypting : State := running .encrypt (regs 0 32 32 15 4031 65)

/-- A completed command with the interrupt enabled. -/
def interrupting : State := { State.reset with ie := true, done := true }

theorem waiting_inv (evs : List Event) : MachineInv { waiting with env := evs } where
  dbuf_wf := ⟨List.Pairwise.nil, nofun⟩
  running _ := ⟨rfl, rfl, rfl⟩
  snapshot _ := rfl
  waiting _ := ⟨.createKey, ([], []), test_decode_createKey, .inl rfl, rfl⟩
  no_answer := rfl
  failed h := absurd rfl h
  outLen_le := Nat.zero_le _

/-- ENCRYPT waiting for the source. -/
def waitingEncrypt : State := { encrypting with phase := .waitEnt }

theorem waitingEncrypt_inv (evs : List Event) : MachineInv { waitingEncrypt with env := evs } where
  dbuf_wf := ⟨List.Pairwise.nil, nofun⟩
  running _ := ⟨rfl, rfl, rfl⟩
  snapshot _ := rfl
  waiting _ := ⟨.encrypt, _, test_decode_encrypt, .inr rfl,
    (operands_congr (t := encrypting) rfl rfl).trans
      (operands_pass (fun _ => by decide) (fun _ => by decide) (by decide) (by decide))⟩
  no_answer := rfl
  failed h := absurd rfl h
  outLen_le := Nat.zero_le _

theorem interrupting_inv (evs : List Event) : MachineInv { interrupting with env := evs } where
  dbuf_wf := ⟨List.Pairwise.nil, nofun⟩
  running h := absurd rfl h
  snapshot h := absurd rfl h
  waiting h := nomatch h
  no_answer := rfl
  failed h := absurd rfl h
  outLen_le := Nat.zero_le _

theorem test_witness_IllegalWordsCompleteWithIllegalCmd :
    State.reset.phase = .idle ∧ (issued 0x101#32 (regs 0 0 0 0 0 0) []).phase ≠ .idle
      ∧ [0x00#32, 0x08#32, 0x0F#32, 0x15#32, 0x1F#32, 0x21#32, 0xFF#32, 0x201#32, 0x80000020#32, 0x101#32, 0x120#32].all
          (fun w => decide (IllegalWord w ∧ IllegalWord (issued w (regs 0 0 0 0 0 0) []).lt.cmd)) = true := by decide

theorem test_witness_StepRunsTheDecodedCommand :
    (running .zeroize (regs 0 0 0 0 0 0)).phase ≠ .idle
      ∧ decode (running .zeroize (regs 0 0 0 0 0 0)).lt.cmd = .ok .zeroize
      ∧ (running .zeroize (regs 0 0 0 0 0 0)).env = []
      ∧ ({ running .zeroize (regs 0 0 0 0 0 0) with env := [.engine] } : State).env = .engine :: []
      ∧ State.reset.phase = .idle ∧ State.reset.env = []
      ∧ ({ State.reset with env := [.busRead 0x1FFC#13 .four, .engine] } : State).env
        = .busRead 0x1FFC#13 .four :: [.engine]
      ∧ ({ State.reset with env := [.busWrite 0x000#13 .four 1#32] } : State).env
        = .busWrite 0x000#13 .four 1#32 :: [] :=
  ⟨by decide, rfl, rfl, rfl, rfl, rfl, rfl, rfl⟩

theorem test_witness_StepKeepsInvariant :
    MachineInv { waiting with env := [.entropy (.ok i16Answer)] }
      ∧ ∃ t, step { waiting with env := [.entropy (.ok i16Answer)] } = .next t :=
  ⟨waiting_inv _, _, rfl⟩

/-- From IDLE, EXEC and WAIT_ENT, each way on that a clause speaks of. -/
theorem test_witness_PhaseTransitions :
    (State.reset.phase = .idle ∧ step State.reset = .next State.reset)
      ∧ gives (step { State.reset with env := [.busWrite 0x010#13 .four 0x20#32] }) (fun t => t.phase = .exec) = true
      ∧ (encrypting.phase = .exec ∧ (running .zeroize (regs 0 0 0 0 0 0)).phase = .exec)
      ∧ goesTo (step encrypting) { encrypting with phase := .waitEnt } = true
      ∧ gives (step (running .zeroize (regs 0 0 0 0 0 0))) (fun t => t.phase = .idle) = true
      ∧ gives (step { encrypting with env := [.reset] }) (fun t => t.phase = .idle) = true
      ∧ (waiting.phase = .waitEnt ∧ step waiting = .next waiting)
      ∧ (∀ evs, MachineInv { waiting with env := evs })
      ∧ gives (step { waiting with env := [.entropy .unavailable] }) (fun t => t.phase = .idle) = true
      ∧ gives (step { waiting with env := [.reset] }) (fun t => t.phase = .idle) = true :=
  ⟨⟨rfl, rfl⟩, by decide +kernel, ⟨rfl, rfl⟩, by decide +kernel, by decide +kernel, by decide +kernel, ⟨rfl, rfl⟩,
    waiting_inv, by decide +kernel, by decide +kernel⟩

theorem test_witness_RegisterReads : [0x030#13, 0xFFC#13].all
    (fun off => decide (0x030 ≤ off.toNat ∧ off.toNat < 0x1000 ∧ off.toNat % 4 = 0)) = true := by decide

theorem test_witness_ReadOnlyAndReservedWritesIgnored :
    [0x000#13, 0x004#13, 0x02C#13, 0x030#13, 0xFFC#13].all
      (fun off => decide (off = 0x000#13 ∨ off = 0x004#13 ∨ off = 0x02C#13
        ∨ (0x030 ≤ off.toNat ∧ off.toNat < 0x1000 ∧ off.toNat % 4 = 0))) = true := by decide

theorem test_witness_BusErrorCausesAndEffect :
    (∀ c ∈ [(0x000#13, BusSize.one), (0xFFC#13, .two), (0xFFF#13, .four), (0x002#13, .four), (0x1001#13, .two),
        (0x1FFF#13, .two), (0x1002#13, .four), (0x1FFE#13, .four)],
      (c.1.toNat < 0x1000 ∧ c.2 ≠ .four) ∨ (c.1.toNat < 0x1000 ∧ c.1.toNat % 4 ≠ 0)
        ∨ (0x1000 ≤ c.1.toNat ∧ c.1.toNat % sizeBytes c.2 ≠ 0))
    ∧ ∀ c ∈ [(0x000#13, BusSize.four), (0xFFC#13, .four), (0x1000#13, .four), (0x1FFF#13, .one), (0x1FFE#13, .two),
        (0x1FFC#13, .four)],
      ¬ ((c.1.toNat < 0x1000 ∧ c.2 ≠ .four) ∨ (c.1.toNat < 0x1000 ∧ c.1.toNat % 4 ≠ 0)
        ∨ (0x1000 ≤ c.1.toNat ∧ c.1.toNat % sizeBytes c.2 ≠ 0)) := by decide

theorem test_witness_DbufAccessIsLittleEndian :
    (∀ c ∈ [(0x1001#13, BusSize.two), (0x1FFE#13, .four)], 0x1000 ≤ c.1.toNat ∧ c.1.toNat % sizeBytes c.2 ≠ 0)
    ∧ Memory.wf State.reset.dbuf ∧ State.reset.phase = .idle
    ∧ ∀ c ∈ [(0x1000#13, BusSize.four), (0x1FFF#13, .one), (0x1FFE#13, .two), (0x1FFC#13, .four)],
        0x1000 ≤ c.1.toNat ∧ c.1.toNat % sizeBytes c.2 = 0 := by decide

theorem test_witness_DbufWhileBusy :
    waiting.phase ≠ .idle ∧ (running .sha256 (regs 0 0 0 0 0 32)).phase ≠ .idle
      ∧ ∀ c ∈ [(0x1000#13, BusSize.four), (0x1FFF#13, .one)], 0x1000 ≤ c.1.toNat ∧ c.1.toNat % sizeBytes c.2 = 0 := by
  decide

theorem test_witness_RegisterWritesWhileBusy :
    waiting.phase ≠ .idle
      ∧ (0x010#13 ∈ [0x010#13, 0x014#13, 0x018#13, 0x01C#13, 0x020#13, 0x024#13, 0x028#13])
      ∧ (0x0FFC#13).toNat % 4 = 0 ∧ 0x030 ≤ (0x0FFC#13).toNat ∧ (0x0FFC#13).toNat < 0x1000
      ∧ 0x1000 ≤ (0x1FFF#13).toNat ∧ (0x1FFF#13).toNat % sizeBytes .one = 0
      ∧ (0x02C#13).toNat < 0x1000 ∧ regAt (0x02C#13).toNat = some .outLen := by decide

theorem test_witness_CmdWriteIssues :
    State.reset.phase = .idle ∧ IllegalWord 0x107FFFFF#32 ∧ waiting.phase ≠ .idle := by decide

theorem test_witness_OperandRegistersStoreEveryBit : State.reset.phase = .idle := by decide

theorem test_witness_InterruptClearedOnlyByItsCauses :
    MachineInv { interrupting with env := [.busWrite 0x00C#13 .four 2#32] }
      ∧ irq { interrupting with env := [.busWrite 0x00C#13 .four 2#32] } = true
      ∧ [Event.busWrite 0x00C#13 .four 2#32, .busWrite 0x010#13 .four 0#32, .busWrite 0x008#13 .four 0#32, .reset].all
          (fun e => gives (step { interrupting with env := [e] }) fun t => !irq t) = true
      ∧ MachineInv { interrupting with env := [.engine] }
      ∧ ∃ t, step { interrupting with env := [.engine] } = .next t ∧ irq t = true :=
  ⟨interrupting_inv _, rfl, by decide +kernel, interrupting_inv _, _, rfl, rfl⟩

theorem test_witness_WindowAddressesSelectOffsets :
    ∃ addr : Nat, addr < Config.base ∨ Config.base + 8192 ≤ addr := ⟨Config.base + 8192, .inr (Nat.le_refl _)⟩

theorem test_witness_ResetValues :
    Reg.outLen ∈ [Reg.ctrl, .status, .cmd, .src0Addr, .src0Len, .src1Addr, .src1Len, .dstAddr, .dstCap, .outLen] := by
  decide

theorem test_witness_ResetFromAnyPhase :
    ({ waiting with env := [.reset, .engine] } : State).env = .reset :: [.engine] := rfl

theorem test_witness_CreateKeyStoresTheAnswer :
    (¬ DestinationFits (running .createKey (regs 0 0 0 0 0x040 15)) 16
        ∧ ¬ DestinationFits (running .createKey (regs 0 0 0 0 4081 16)) 16)
      ∧ DestinationFits (answered (.ok i16Answer) (running .createKey (regs 0 0 0 0 4080 16))) 16
      ∧ (answered (.ok i16Answer) (running .createKey (regs 0 0 0 0 4080 16))).phase = .waitEnt
      ∧ (answered (.ok i16Answer) (running .createKey (regs 0 0 0 0 4080 16))).ent = some (.ok i16Answer)
      ∧ DestinationFits (answered .unavailable (running .createKey (regs 0 0 0 0 0 16))) 16
      ∧ (answered .unavailable (running .createKey (regs 0 0 0 0 0 16))).ent = some .unavailable
      ∧ (running .createKey (regs 0 0 0 0 0 16)).phase = .exec := by decide

theorem test_witness_DerivePassphraseKeyStoresTheKey :
    let good := running .derivePassphraseKey (regs 4096 0 4080 16 4080 16)
    let out := running .derivePassphraseKey (regs 0 0 4081 16 0 16)
    let salt := running .derivePassphraseKey (regs 0 0 0 17 0 16)
    let small := running .derivePassphraseKey (regs 0 0 0 16 0 15)
    (Source0Inside good ∧ Source1Inside good ∧ good.lt.ops.src1Len.toNat = 16 ∧ DestinationFits good 16)
      ∧ ¬ (Source0Inside out ∧ Source1Inside out)
      ∧ (Source0Inside salt ∧ Source1Inside salt ∧ salt.lt.ops.src1Len.toNat ≠ 16)
      ∧ (Source0Inside small ∧ Source1Inside small ∧ small.lt.ops.src1Len.toNat = 16 ∧ ¬ DestinationFits small 16) := by
  decide

theorem test_witness_DeriveSubkeysStoresTheHash :
    let good := running .deriveSubkeys (regs 4080 16 0 0 4064 32)
    let out := running .deriveSubkeys (regs 4081 16 0 0 0 32)
    let long := running .deriveSubkeys (regs 4079 17 0 0 0 32)
    let small := running .deriveSubkeys (regs 0 16 0 0 4065 32)
    (Source0Inside good ∧ good.lt.ops.src0Len.toNat = 16 ∧ DestinationFits good 32)
      ∧ ¬ Source0Inside out
      ∧ (Source0Inside long ∧ long.lt.ops.src0Len.toNat ≠ 16)
      ∧ (Source0Inside small ∧ small.lt.ops.src0Len.toNat = 16 ∧ ¬ DestinationFits small 32) := by decide

/-- For WrapKeyStoresTheWrappedKey, UnwrapKeyStoresTheChild, BlockEncStoresTheCipherBlock and
BlockDecStoresThePlainBlock, under each of their clauses. -/
theorem test_witness_two_blocks :
    ∀ i ∈ [Instr.wrapKey, .unwrapKey, .blockEnc, .blockDec],
      let good := running i (regs 4080 16 0 16 4080 16)
      let out := running i (regs 0 16 4081 16 0 16)
      let long := running i (regs 0 16 4079 17 0 16)
      let short := running i (regs 0 15 0 16 0 16)
      let small := running i (regs 0 16 0 16 0 15)
      (Source0Inside good ∧ Source1Inside good ∧ good.lt.ops.src0Len.toNat = 16 ∧ good.lt.ops.src1Len.toNat = 16
          ∧ DestinationFits good 16)
        ∧ ¬ (Source0Inside out ∧ Source1Inside out)
        ∧ (Source0Inside long ∧ Source1Inside long ∧ long.lt.ops.src1Len.toNat ≠ 16)
        ∧ (Source0Inside short ∧ Source1Inside short ∧ short.lt.ops.src0Len.toNat ≠ 16)
        ∧ (Source0Inside small ∧ Source1Inside small ∧ small.lt.ops.src0Len.toNat = 16
          ∧ small.lt.ops.src1Len.toNat = 16 ∧ ¬ DestinationFits small 16) := by decide

theorem test_witness_EncryptStoresTheContainer :
    let good := answered (.ok i16Answer) encrypting
    let refused := answered .unavailable encrypting
    let out := running .encrypt (regs 0 32 4096 1 0 65)
    let long := running .encrypt (regs 0 33 0 0 0 65)
    let small := running .encrypt (regs 0 32 0 16 0 80)
    (Source0Inside good ∧ Source1Inside good ∧ good.lt.ops.src0Len.toNat = 32
        ∧ DestinationFits good (65 + 16 * (good.lt.ops.src1Len.toNat / 16))
        ∧ good.phase = .waitEnt ∧ good.ent = some (.ok i16Answer))
      ∧ (refused.phase = .waitEnt ∧ refused.ent = some .unavailable) ∧ encrypting.phase = .exec
      ∧ ¬ (Source0Inside out ∧ Source1Inside out)
      ∧ (Source0Inside long ∧ Source1Inside long ∧ long.lt.ops.src0Len.toNat ≠ 32)
      ∧ (Source0Inside small ∧ Source1Inside small ∧ small.lt.ops.src0Len.toNat = 32
        ∧ ¬ DestinationFits small (65 + 16 * (small.lt.ops.src1Len.toNat / 16))) := by decide

/-- The clauses of DECRYPT up to the tag; those after it have the next theorem. -/
theorem test_witness_DecryptVerifiesThenDecrypts_checks :
    let out := running (.decrypt false) (regs 0 32 4032 65 0 15)
    let key := running (.decrypt false) (regs 0 31 0 65 0 15)
    let short := running (.decrypt false) (regs 0 32 0 32 0 15)
    let uneven := running (.decrypt false) (regs 0 32 0 66 0 15)
    let version := running (.decrypt true) (regs 0 32 0 33 0 0)
    let small := running (.decrypt false) (regs 0 32 0 65 0 14)
    ¬ (Source0Inside out ∧ Source1Inside out)
      ∧ (Source0Inside key ∧ Source1Inside key ∧ key.lt.ops.src0Len.toNat ≠ 32)
      ∧ (Source0Inside short ∧ Source1Inside short ∧ short.lt.ops.src1Len.toNat < 33)
      ∧ (Source0Inside uneven ∧ Source1Inside uneven ∧ uneven.lt.ops.src1Len.toNat % 16 ≠ 1)
      ∧ (¬ (version.lt.ops.src1Len.toNat < 33 ∨ version.lt.ops.src1Len.toNat % 16 ≠ 1)
        ∧ (source1 version).getD 0 0 ≠ 0x01#8)
      ∧ (¬ (small.lt.ops.src1Len.toNat < 33 ∨ small.lt.ops.src1Len.toNat % 16 ≠ 1)
        ∧ ¬ DestinationFits small (if small.lt.ops.src1Len.toNat ≥ 65 then small.lt.ops.src1Len.toNat - 50 else 0)) := by
  decide

/-- The container of V9.7: its tag is right, its padding is not. -/
def badPadding9 : Bytes :=
  hex 65 0x01000102030405060708090a0b0c0d0e0f0dfa30e325650c9a9ca654a25f5efd2ba0965294018126baae16b66e664fb03c130eb9e86f094e0fce09a10cbcf7ab84

/-- V9.1 opens; V9.7 fails at the padding; a changed tag byte fails; the destination of 15 bytes fits all three. -/
theorem test_witness_DecryptVerifiesThenDecrypts_tag :
    DestinationFits (harness (.decrypt true) sk9 container9 15) 15
      ∧ hmacTag (sk9.drop 16) (slice container9 1 33) = slice container9 33 65
      ∧ unpad (cbcDec (sk9.take 16) (slice container9 1 17) (slice container9 17 33)) = some (hex 3 0x616263)
      ∧ hmacTag (sk9.drop 16) (slice badPadding9 1 33) = slice badPadding9 33 65
      ∧ unpad (cbcDec (sk9.take 16) (slice badPadding9 1 17) (slice badPadding9 17 33)) = none
      ∧ hmacTag (sk9.drop 16) (slice container9 1 33) ≠ slice badPadding9 33 65 := by decide +kernel

theorem test_witness_Sha256StoresTheDigest :
    let good := running .sha256 (regs 0 4096 0xFFFFFFFF 0xFFFFFFFF 4064 32)
    let out := running .sha256 (regs 4097 0 0 0 0 32)
    (Source0Inside good ∧ DestinationFits good 32) ∧ ¬ (Source0Inside out ∧ DestinationFits out 32) := by decide

theorem test_witness_BcryptStoresTheRawOutput :
    let good := running .bcrypt (regs 4024 72 4080 16 4072 24)
    let out := running .bcrypt (regs 4025 72 0 16 0 24)
    let empty := running .bcrypt (regs 0 0 0 16 0 24)
    let long := running .bcrypt (regs 0 73 0 16 0 24)
    let salt := running .bcrypt (regs 0 1 0 15 0 24)
    let small := running .bcrypt (regs 0 1 0 16 0 23)
    (Source0Inside good ∧ Source1Inside good ∧ 1 ≤ good.lt.ops.src0Len.toNat ∧ good.lt.ops.src0Len.toNat ≤ 72
        ∧ good.lt.ops.src1Len.toNat = 16 ∧ DestinationFits good 24)
      ∧ ¬ (Source0Inside out ∧ Source1Inside out)
      ∧ (Source0Inside empty ∧ Source1Inside empty ∧ empty.lt.ops.src0Len.toNat < 1)
      ∧ (Source0Inside long ∧ Source1Inside long ∧ 72 < long.lt.ops.src0Len.toNat)
      ∧ (Source0Inside salt ∧ Source1Inside salt ∧ 1 ≤ salt.lt.ops.src0Len.toNat ∧ salt.lt.ops.src0Len.toNat ≤ 72
        ∧ salt.lt.ops.src1Len.toNat ≠ 16)
      ∧ (Source0Inside small ∧ Source1Inside small ∧ small.lt.ops.src1Len.toNat = 16 ∧ ¬ DestinationFits small 24) := by
  decide

theorem test_witness_HmacStoresTheTag :
    let good := running .hmac (regs 4096 0 4096 0 4064 32)
    let small := running .hmac (regs 0 65 0 1 0 31)
    (Source0Inside good ∧ Source1Inside good ∧ DestinationFits good 32)
      ∧ ¬ (Source0Inside small ∧ Source1Inside small ∧ DestinationFits small 32) := by decide

theorem test_witness_FirstFailingCheckDecides :
    let first := running .hmac (regs 4097 0 4097 0 0 0)
    let second := running .hmac (regs 0 0 4097 0 0 0)
    let length := running .bcrypt (regs 0 73 0 15 0 0)
    let small := running .hmac (regs 0 0 0 0 0 31)
    (Instr.hmac ≠ .zeroize ∧ usesSrc0 .hmac = true ∧ ¬ Source0Inside first)
      ∧ (Source0Inside second ∧ usesSrc1 .hmac = true ∧ ¬ Source1Inside second)
      ∧ (Source0Inside length ∧ Source1Inside length
        ∧ lengthChecks .bcrypt (source0 length) (source1 length) = some .inputLength)
      ∧ (Source0Inside small ∧ Source1Inside small ∧ lengthChecks .hmac (source0 small) (source1 small) = none
        ∧ ¬ DestinationFits small (maxOut .hmac (source1 small).length)) := by decide

/-- CREATE_KEY over a buffer with one listed byte, and its failure: both complete. -/
theorem test_witness_CommandFrame :
    Memory.wf (issued 1#32 (regs 0 0 0 0 1 16) [(0, 7#8)]).dbuf
      ∧ gives (exec .createKey (answered (.ok i16Answer) (issued 1#32 (regs 0 0 0 0 1 16) [(0, 7#8)])))
          (fun t => t.phase = .idle && t.err = .ok && Memory.readByte t.dbuf 0 = 7#8 && Memory.readByte t.dbuf 16 = 0x0f#8)
        = true
      ∧ gives (exec .createKey (answered .unavailable (issued 1#32 (regs 0 0 0 0 1 16) [(0, 7#8)])))
          (fun t => t.phase = .idle && t.err ≠ .ok) = true := by decide +kernel

theorem test_witness_CommittedOutputStandsAtDestination :
    Memory.wf (running .createKey (regs 0 0 0 0 4080 16)).dbuf
      ∧ (running .createKey (regs 0 0 0 0 4080 16)).lt.ops.dstAddr.toNat + i16.length ≤ 4096 := by decide

/-- One completed command for each code that a command word's own checks give. -/
theorem test_witness_CompletionCodesByCommand :
    gives (exec .hmac (running .hmac (regs 4097 0 0 0 0 32))) (fun t => t.phase = .idle && t.err = .range) = true
      ∧ gives (exec .wrapKey (running .wrapKey (regs 0 15 0 16 0 16)))
          (fun t => t.phase = .idle && t.err = .inputLength) = true
      ∧ gives (exec .bcrypt (running .bcrypt (regs 0 1 0 15 0 24)))
          (fun t => t.phase = .idle && t.err = .invalidSalt) = true
      ∧ gives (exec .createKey (answered .unavailable waiting))
          (fun t => t.phase = .idle && t.err = .entropyUnavailable) = true
      ∧ gives (exec (.decrypt false) (running (.decrypt false) (regs 0 32 0 32 0 0)))
          (fun t => t.phase = .idle && t.err = .decryptFail) = true := by decide +kernel

/-- SHA256 does not use SRC1; the operand values on both sides differ there only. -/
theorem test_witness_UnusedOperandsIgnored :
    (regs 0 4097 7 9 0 32).src0Addr = (running .sha256 (regs 0 4097 0 0 0 32)).lt.ops.src0Addr
      ∧ (regs 0 4097 7 9 0 32).src0Len = (running .sha256 (regs 0 4097 0 0 0 32)).lt.ops.src0Len
      ∧ usesSrc1 .sha256 = false
      ∧ (regs 0 4097 7 9 0 32).dstAddr = (running .sha256 (regs 0 4097 0 0 0 32)).lt.ops.dstAddr
      ∧ (regs 0 4097 7 9 0 32).dstCap = (running .sha256 (regs 0 4097 0 0 0 32)).lt.ops.dstCap
      ∧ goesTo (exec .sha256 (running .sha256 (regs 0 4097 0 0 0 32)))
          (afterFail (running .sha256 (regs 0 4097 0 0 0 32)) .range) = true := by decide +kernel

theorem test_witness_DecryptFailureGivesNothing :
    gives (exec (.decrypt false) (running (.decrypt false) (regs 0 32 0 32 0 0))) (fun t => t.err ≠ .ok) = true := by
  decide +kernel

theorem test_witness_ShortContainersFail : ∀ n ∈ [33, 49],
    let s := running (.decrypt false) (regs 0 32 (4096 - n) n 4096 0)
    Source0Inside s ∧ Source1Inside s ∧ s.lt.ops.src0Len.toNat = 32 ∧ s.lt.ops.src1Len.toNat = n
      ∧ DestinationFits s 0 := by decide

theorem test_witness_VersionByteCheckedOnlyWithV :
    let s := running (.decrypt true) (regs 0 32 4095 1 0 0)
    32 ≤ (List.replicate 32 0x00#8).length ∧ Source0Inside s ∧ Source1Inside s ∧ s.lt.ops.src0Len.toNat = 32
      ∧ (source1 s).getD 0 0 ≠ 0x01#8 := by decide

theorem test_witness_EntropyRequestedOnlyAfterChecks :
    encrypting.phase ≠ .waitEnt ∧ goesTo (exec .encrypt encrypting) { encrypting with phase := .waitEnt } = true := by
  decide +kernel

/-- The empty queue, and one of bus transactions and engine steps. -/
theorem test_witness_EntropyWaitHasNoTimeout :
    MachineInv { waiting with env := [] } ∧ waiting.phase = .waitEnt ∧ waiting.env = []
      ∧ MachineInv { waiting with env := [.engine, .busWrite 0x010#13 .four 5#32, .busRead 0x1000#13 .one] }
      ∧ ∀ e ∈ [Event.engine, .busWrite 0x010#13 .four 5#32, .busRead 0x1000#13 .one],
          isTransaction e = true ∨ e = .engine :=
  ⟨waiting_inv _, rfl, rfl, waiting_inv _, by decide⟩

theorem test_witness_WaitEndsOnlyByAnswerOrReset :
    MachineInv { waiting with env := [.busWrite 0x010#13 .four 5#32] } ∧ waiting.phase = .waitEnt
      ∧ ∃ t, step { waiting with env := [.busWrite 0x010#13 .four 5#32] } = .next t ∧ t.werr = true :=
  ⟨waiting_inv _, rfl, _, rfl, rfl⟩

/-- Both commands waiting with each answer at hand, and an answer nobody asked for. -/
theorem test_witness_EntropyAnswerCompletes :
    (MachineInv { waiting with env := [.entropy .unavailable] } ∧ waiting.phase = .waitEnt
        ∧ ∃ t, step { waiting with env := [.entropy .unavailable] } = .next t)
      ∧ (MachineInv { waiting with env := [.entropy (.ok i16Answer)] }
        ∧ decode waiting.lt.cmd = .ok .createKey
        ∧ ∃ t, step { waiting with env := [.entropy (.ok i16Answer)] } = .next t)
      ∧ (MachineInv { waitingEncrypt with env := [.entropy (.ok i16Answer)] } ∧ waitingEncrypt.phase = .waitEnt
        ∧ decode waitingEncrypt.lt.cmd = .ok .encrypt)
      ∧ State.reset.phase ≠ .waitEnt ∧ encrypting.phase ≠ .waitEnt
      ∧ ({ State.reset with env := [.entropy (.ok i16Answer)] } : State).env = .entropy (.ok i16Answer) :: [] :=
  ⟨⟨waiting_inv _, rfl, _, rfl⟩, ⟨waiting_inv _, test_decode_createKey, _, rfl⟩,
    ⟨waitingEncrypt_inv _, rfl, test_decode_encrypt⟩, by decide, by decide, rfl⟩

/-- V5.2 as a step: the answer of the event is the key stored. -/
theorem test_entropy_event :
    gives (step { waiting with env := [.entropy (.ok 0xffeeddccbbaa99887766554433221100#128)] })
      (outputs (hex 16 0x00112233445566778899aabbccddeeff)) = true := by decide +kernel

/-- For BusyHidesDataBuffer and TransactionsDoNotReachRunningCommand. -/
theorem test_witness_transactions_while_running :
    waiting.phase ≠ .idle
      ∧ ∀ e ∈ [Event.busRead 0x1000#13 .four, .busWrite 0x010#13 .four 0x20#32, .busWrite 0x1000#13 .one 1#32],
          isTransaction e = true := by decide

theorem test_witness_BlockCipherIsABijection : i16.length = 16 := by decide

/-- Whole blocks: 16 bytes of padding, and an invalid block. -/
theorem test_witness_UnpadAcceptsExactlyPaddedStrings :
    (List.replicate 16 0x10#8).length % 16 = 0 ∧ unpad (List.replicate 16 0x10#8) = some []
      ∧ unpad (List.replicate 16 0x00#8) = none := by decide

/-- WRAP_KEY and then UNWRAP_KEY of its output, the parent left in place. -/
theorem test_witness_UnwrapUndoesWrap :
    let s := harness .wrapKey i16 i16 16
    let t := afterCommit s (wrapped i16 i16)
    let u : State := { t with phase := .exec, lt := { cmd := 5#32, ops := regs 0 16 0x800 16 0x400 16 } }
    Memory.wf s.dbuf ∧ goesTo (exec .wrapKey s) t = true ∧ t.err = .ok ∧ u.dbuf = t.dbuf ∧ source0 u = source0 s
      ∧ Source0Inside u ∧ u.lt.ops.src1Addr = s.lt.ops.dstAddr ∧ u.lt.ops.src1Len = t.outLen
      ∧ DestinationFits u 16 := by decide +kernel

/-- ENCRYPT and then DECRYPT of its output, the SubKeys left in place. -/
theorem test_witness_DecryptUndoesEncrypt :
    let s := answered (.ok i16Answer) (harness .encrypt sk9 (hex 3 0x616263) 65)
    let t := afterCommit s container9
    let u : State := { t with phase := .exec, lt := { cmd := 7#32, ops := regs 0 32 0x800 65 0x400 15 } }
    Memory.wf s.dbuf ∧ goesTo (exec .encrypt s) t = true ∧ t.phase = .idle ∧ t.err = .ok ∧ u.dbuf = t.dbuf
      ∧ source0 u = source0 s ∧ Source0Inside u ∧ u.lt.ops.src1Addr = s.lt.ops.dstAddr
      ∧ u.lt.ops.src1Len = t.outLen ∧ DestinationFits u (t.outLen.toNat - 50) := by decide +kernel

/-- The passphrase "abc", its digest at `DBUF[0x100..)`. -/
theorem test_witness_PassphraseKeyIsBcryptPrefix :
    let m := Memory.writeBytes (Memory.writeBytes [] 0 (hex 3 0x616263)) 0x100
      (hex 32 0xba7816bf8f01cfea414140de5dae2223b00361a396177a9cb410ff61f20015ad)
    let s := issued 2#32 (regs 0 3 0x400 16 0x800 16) m
    let u := issued 0x11#32 (regs 0x100 32 0x400 16 0x800 24) m
    Source0Inside s ∧ Source1Inside s ∧ s.lt.ops.src1Len.toNat = 16 ∧ DestinationFits s 16
      ∧ Source0Inside u ∧ Source1Inside u ∧ DestinationFits u 24
      ∧ source0 u = sha256 (source0 s) ∧ source1 u = source1 s := by decide +kernel

/-- The operands of the first command of P1. -/
theorem test_witness_IssueExpansionIssuesTheCommand :
    let c := AsmCommand.mk .sha256 (some ⟨0x020, 32⟩) (some ⟨0, 3⟩) none
    let s := { State.reset with env := (expand (.issue c)).map transaction }
    c.wellFormed = true ∧ s.phase = .idle ∧ s.env = (expand (.issue c)).map transaction ∧ s.env.length = 5 := by decide

theorem test_witness_WbytesStoresTheString :
    let s := { State.reset with env := (expand (.wbytes 4093 (hex 3 0x616263))).map transaction }
    Memory.wf s.dbuf ∧ s.phase = .idle ∧ 4093 + (hex 3 0x616263).length ≤ 4096 ∧ s.env.length = 3 := by decide

theorem test_witness_AckClearsDoneAndWerr :
    ({ interrupting with env := (expand .ack).map transaction } : State).env = (expand .ack).map transaction := rfl

end Sys2Proof.Tests
end

section
/-! SUPPORT. The bus window (R6, R60, R61): which offset a bus address selects. -/

namespace Sys2Proof.Machine

/-- Whatever slot the platform gives the window, `BASE` is aligned to the window's size. -/
theorem windowSize_dvd_base : Config.windowSize ∣ Config.base := Nat.dvd_mul_right _ Config.baseIndex

/-- Thirteen bits count the bytes of the window, so every offset lies inside it. -/
theorem offset_lt_windowSize (off : Offset) : off.toNat < Config.windowSize := off.isLt

theorem windowOffset_busAddress (off : Offset) : windowOffset (busAddress off) = some off := by
  have hinside : Config.base ≤ busAddress off ∧ busAddress off < Config.base + Config.windowSize :=
    ⟨Nat.le_add_right _ _, Nat.add_lt_add_left (offset_lt_windowSize off) _⟩
  rw [windowOffset, if_pos hinside, busAddress, Nat.add_sub_cancel_left, BitVec.ofNat_toNat, BitVec.setWidth_eq]

theorem windowOffset_eq_none_iff (addr : Nat) :
    windowOffset addr = none ↔ addr < Config.base ∨ Config.base + Config.windowSize ≤ addr := by
  unfold windowOffset
  split
  next hinside => simp only [reduceCtorEq, false_iff]; omega
  next houtside => simp only [true_iff]; omega

/-- Settles O22: an offset is read back from its own bus address, and no address outside the window answers. -/
theorem windowAddressesSelectOffsets : Obligations.WindowAddressesSelectOffsets :=
  ⟨Nat.mod_eq_zero_of_dvd windowSize_dvd_base, windowOffset_busAddress,
    fun addr houtside => (windowOffset_eq_none_iff addr).2 houtside⟩

end Sys2Proof.Machine
end

section
/-! SUPPORT. The register window: what each register reads as, what a write of it does, idle and busy (10_state.md R22 to
R38), and the words that CMD takes. -/

namespace Sys2Proof.Machine

/-- R62: the answer to an accepted write. -/
abbrev okayWrite : BusAnswer := { resp := .okay, data := 0 }

/-! ### An access of the register window goes to the register its offset names -/

theorem accepted_register {off : Offset} (hlt : off.toNat < 0x1000) (hal : off.toNat % 4 = 0) :
    accepted off .four = true := by
  rw [← Bool.not_eq_false, accepted_eq_false]
  rintro (⟨-, hsize⟩ | ⟨-, hmis⟩ | ⟨hge, -⟩)
  · exact hsize rfl
  · exact hmis hal
  · omega

/-- R22: registers stand at aligned offsets of the register window. -/
theorem regAt_aligned {n : Nat} {r : Reg} (h : regAt n = some r) : n < 0x1000 ∧ n % 4 = 0 := by
  have hoffsets := regAt_cases h
  omega

theorem readAnswer_register (s : State) {off : Offset} {r : Reg} (h : regAt off.toNat = some r) :
    readAnswer s off .four = { resp := .okay, data := regRead s r } := by
  obtain ⟨hlt, hal⟩ := regAt_aligned h
  rw [readAnswer, if_pos (accepted_register hlt hal), readData, dbufOffset, if_pos hlt, h]

theorem busWrite_register (s : State) {off : Offset} {r : Reg} (h : regAt off.toNat = some r) (w : Word) :
    busWrite s off .four w = { regWrite s r w with resp := some okayWrite } := by
  obtain ⟨hlt, hal⟩ := regAt_aligned h
  rw [busWrite, if_pos (accepted_register hlt hal), writeEffect, dbufOffset, if_pos hlt, h]

/-- R32: a reserved offset reads as 0. -/
theorem readAnswer_reserved (s : State) {off : Offset} (hge : 0x030 ≤ off.toNat) (hlt : off.toNat < 0x1000)
    (hal : off.toNat % 4 = 0) : readAnswer s off .four = { resp := .okay, data := 0 } := by
  rw [readAnswer, if_pos (accepted_register hlt hal), readData, dbufOffset, if_pos hlt, regAt_reserved hge]

/-- R32: a write of a reserved offset is ignored. -/
theorem busWrite_reserved (s : State) {off : Offset} (hge : 0x030 ≤ off.toNat) (hlt : off.toNat < 0x1000)
    (hal : off.toNat % 4 = 0) (w : Word) : busWrite s off .four w = { s with resp := some okayWrite } := by
  rw [busWrite, if_pos (accepted_register hlt hal), writeEffect, dbufOffset, if_pos hlt, regAt_reserved hge]

/-! ### The words of CTRL and STATUS -/

theorem ctrlWord_eq_ite (s : State) : ctrlWord s = if s.ie then 1#32 else 0#32 := by
  unfold ctrlWord
  cases s.ie <;> rfl

theorem and_one_eq_ite (w : Word) : w &&& 1#32 = if w.getLsbD 0 then 1#32 else 0#32 := by
  rw [BitVec.and_one_eq_setWidth_ofBool_getLsbD]
  cases w.getLsbD 0 <;> rfl

theorem busy_eq_decide (s : State) : busy s = decide (s.phase ≠ .idle) := by
  unfold busy
  cases s.phase <;> rfl

theorem entw_eq_decide (s : State) : entw s = decide (s.phase = .waitEnt) := by
  unfold entw
  cases s.phase <;> rfl

/-- R26, R33: the bits of the status word above its four flags, the code's and the reserved ones. -/
theorem getLsbD_statusWord_of_ge (s : State) {i : Nat} (hi : 4 ≤ i) :
    (statusWord s).getLsbD i = (decide (8 ≤ i) && (codeNumber s.err).getLsbD (i - 8)) := by
  obtain ⟨k, rfl⟩ := Nat.exists_eq_add_of_le' hi
  have hsub : k + 4 - 8 = k - 4 := by omega
  have hge : decide (8 ≤ k + 4) = !decide (k < 4) := by
    rw [← decide_not]
    exact decide_eq_decide.2 (by omega)
  rw [hsub, hge]
  simp only [statusWord, BitVec.getLsbD_append]
  by_cases hcode : k - 4 < 4
  · simp [hcode]
  · have hout : (codeNumber s.err).getLsbD (k - 4) = false := BitVec.getLsbD_of_ge _ _ (Nat.not_lt.1 hcode)
    simp [hcode, hout]

/-- Settles O17: the four flags by the lowest bits, the rest by the code and the zeros about it. -/
theorem statusBits : Obligations.StatusBits := by
  intro s
  rw [← busy_eq_decide, ← entw_eq_decide]
  have hflags : (statusWord s).getLsbD 0 = busy s ∧ (statusWord s).getLsbD 1 = s.done
      ∧ (statusWord s).getLsbD 2 = s.werr ∧ (statusWord s).getLsbD 3 = entw s := by
    simp only [statusWord, BitVec.getLsbD_append]
    exact ⟨by simp, by simp, by simp, by simp⟩
  obtain ⟨hbusy, hdone, hwerr, hentw⟩ := hflags
  refine ⟨hbusy, hdone, hwerr, hentw, ?_, ?_, ?_⟩ <;> ext i hi <;>
    rw [BitVec.getElem_extractLsb', getLsbD_statusWord_of_ge s (by omega)]
  · have hreserved : ¬ 8 ≤ 4 + i := by omega
    simp [hreserved]
  · simp [← BitVec.getLsbD_eq_getElem]
  · have hout : 4 ≤ 12 + i - 8 := by omega
    simp [BitVec.getLsbD_of_ge _ _ hout]

/-! ### Reads -/

/-- Settles O10: each register and reserved offset by the rule of its kind; that a read keeps the state is `busRead`. -/
theorem registerReads : Obligations.RegisterReads := fun s =>
  ⟨readAnswer_register s (r := .id) rfl, readAnswer_register s (r := .cap) rfl,
    ctrlWord_eq_ite s ▸ readAnswer_register s (r := .ctrl) rfl,
    readAnswer_register s (r := .status) rfl, readAnswer_register s (r := .cmd) rfl,
    readAnswer_register s (r := .src0Addr) rfl, readAnswer_register s (r := .src0Len) rfl,
    readAnswer_register s (r := .src1Addr) rfl, readAnswer_register s (r := .src1Len) rfl,
    readAnswer_register s (r := .dstAddr) rfl, readAnswer_register s (r := .dstCap) rfl,
    readAnswer_register s (r := .outLen) rfl,
    fun _ hge hlt hal => readAnswer_reserved s hge hlt hal, fun _ _ => rfl⟩

/-- Settles O23: the fields of the reset state, as the registers, the buffer and the outputs show them. -/
theorem resetValues : Obligations.ResetValues :=
  ⟨rfl, rfl, by decide, fun _ => rfl, rfl, rfl, rfl⟩

/-! ### Writes that do the same idle and busy -/

/-- Settles O11: no rule writes ID, CAP or OUT_LEN, and a reserved offset names no register. -/
theorem readOnlyAndReservedWritesIgnored : Obligations.ReadOnlyAndReservedWritesIgnored := by
  rintro s off d (rfl | rfl | rfl | ⟨hge, hlt, hal⟩)
  · exact busWrite_register s (r := .id) rfl d
  · exact busWrite_register s (r := .cap) rfl d
  · exact busWrite_register s (r := .outLen) rfl d
  · exact busWrite_reserved s hge hlt hal d

theorem busWrite_ctrl (s : State) (w : Word) :
    busWrite s 0x008#13 .four w = { s with ie := w.getLsbD 0, resp := some okayWrite } :=
  busWrite_register s (r := .ctrl) rfl w

theorem busWrite_status (s : State) (w : Word) :
    busWrite s 0x00C#13 .four w
      = { s with done := s.done && !w.getLsbD 1, werr := s.werr && !w.getLsbD 2, resp := some okayWrite } :=
  busWrite_register s (r := .status) rfl w

/-- Settles O16: IE is the one bit of CTRL that a write stores and a read shows. -/
theorem ctrlWriteStoresInterruptEnable : Obligations.CtrlWriteStoresInterruptEnable := by
  intro s w
  refine ⟨busWrite_ctrl s w, ?_, ?_, rfl⟩
  · rw [busWrite_ctrl, and_one_eq_ite]
    exact ctrlWord_eq_ite _
  · rw [irq, Bool.and_eq_true]

theorem and_not_eq_ite (flag clear : Bool) : (flag && !clear) = if clear then false else flag := by
  cases clear <;> simp

/-- Settles O18: a flag stays exactly where the bit written is 0. -/
theorem statusWriteOneToClear : Obligations.StatusWriteOneToClear := by
  intro s w
  rw [busWrite_status, and_not_eq_ite, and_not_eq_ite]

/-- Settles O60: ACK is the write of 6 to STATUS, both clearing bits. -/
theorem ackClearsDoneAndWerr : Obligations.AckClearsDoneAndWerr := by
  intro s henv
  have hack : step s = .next (busWrite { s with env := [] } 0x00C#13 .four 0x6#32) := by
    unfold step
    rw [henv]
    rfl
  have hdone : (0x6#32).getLsbD 1 = true := rfl
  have hwerr : (0x6#32).getLsbD 2 = true := rfl
  rw [hack, statusWriteOneToClear, hdone, hwerr, if_pos rfl, if_pos rfl]

/-! ### Writes of CMD and of the operand registers -/

/-- R29: the six operand registers. -/
def operandRegs : List Reg := [.src0Addr, .src0Len, .src1Addr, .src1Len, .dstAddr, .dstCap]

theorem regAt_operand_offsets : ∀ off ∈ [0x014#13, 0x018#13, 0x01C#13, 0x020#13, 0x024#13, 0x028#13],
    ∃ r ∈ operandRegs, regAt off.toNat = some r := by
  intro off hoff
  simp only [List.mem_cons, List.not_mem_nil, or_false] at hoff
  rcases hoff with rfl | rfl | rfl | rfl | rfl | rfl
  · exact ⟨.src0Addr, by decide, rfl⟩
  · exact ⟨.src0Len, by decide, rfl⟩
  · exact ⟨.src1Addr, by decide, rfl⟩
  · exact ⟨.src1Len, by decide, rfl⟩
  · exact ⟨.dstAddr, by decide, rfl⟩
  · exact ⟨.dstCap, by decide, rfl⟩

theorem operandWrite_idle {s : State} (hp : s.phase = .idle) (ops : OperandRegs) :
    operandWrite s ops = { s with ops := ops } := by
  rw [operandWrite, busy_of_phase_idle hp]
  rfl

theorem operandWrite_busy {s : State} (hp : s.phase ≠ .idle) (ops : OperandRegs) :
    operandWrite s ops = dropWrite s := by
  rw [operandWrite, if_pos (busy_of_phase_ne_idle hp)]

/-- R30: the registers whose writes are dropped while a command runs. -/
theorem regWrite_dropped {s : State} {r : Reg} (hp : s.phase ≠ .idle) (hr : r ∈ Reg.cmd :: operandRegs) (w : Word) :
    regWrite s r w = dropWrite s := by
  have hcmd : regWrite s .cmd w = dropWrite s := if_pos (busy_of_phase_ne_idle hp)
  simp only [operandRegs, List.mem_cons, List.not_mem_nil, or_false] at hr
  rcases hr with rfl | rfl | rfl | rfl | rfl | rfl | rfl
  · exact hcmd
  all_goals exact operandWrite_busy hp _

theorem busWrite_dropped {s : State} {off : Offset} {r : Reg} (hp : s.phase ≠ .idle)
    (hoff : regAt off.toNat = some r) (hr : r ∈ Reg.cmd :: operandRegs) (w : Word) :
    busWrite s off .four w = { s with werr := true, resp := some okayWrite } := by
  rw [busWrite_register s hoff, regWrite_dropped hp hr]
  rfl

/-- R29: an operand register reads as the value written to it while idle. -/
theorem regRead_regWrite_operand {s : State} {r : Reg} (hp : s.phase = .idle) (hr : r ∈ operandRegs) (w : Word)
    (a : Option BusAnswer) : regRead { regWrite s r w with resp := a } r = w := by
  simp only [operandRegs, List.mem_cons, List.not_mem_nil, or_false] at hr
  rcases hr with rfl | rfl | rfl | rfl | rfl | rfl <;> simp only [regWrite, operandWrite_idle hp, regRead]

/-- Settles O20: the write of each register while idle, then the read back for all six at once. -/
theorem operandRegistersStoreEveryBit : Obligations.OperandRegistersStoreEveryBit := by
  intro s w hp
  refine ⟨?_, ?_, ?_, ?_, ?_, ?_, fun off hoff => ?_⟩
  · rw [busWrite_register s (r := .src0Addr) rfl, regWrite, operandWrite_idle hp]
  · rw [busWrite_register s (r := .src0Len) rfl, regWrite, operandWrite_idle hp]
  · rw [busWrite_register s (r := .src1Addr) rfl, regWrite, operandWrite_idle hp]
  · rw [busWrite_register s (r := .src1Len) rfl, regWrite, operandWrite_idle hp]
  · rw [busWrite_register s (r := .dstAddr) rfl, regWrite, operandWrite_idle hp]
  · rw [busWrite_register s (r := .dstCap) rfl, regWrite, operandWrite_idle hp]
  · obtain ⟨r, hr, hreg⟩ := regAt_operand_offsets off hoff
    rw [readAnswer_register _ hreg, busWrite_register s hreg, regRead_regWrite_operand hp hr]

/-- R66: an aligned write of `DBUF` while busy is dropped. -/
theorem busWrite_dbuf_dropped {s : State} {off : Offset} {n : BusSize} (hp : s.phase ≠ .idle)
    (hge : 0x1000 ≤ off.toNat) (hal : off.toNat % sizeBytes n = 0) (w : Word) :
    busWrite s off n w = { s with werr := true, resp := some okayWrite } := by
  have hdbuf : ¬ off.toNat < dbufOffset := Nat.not_lt.2 hge
  have hacc : accepted off n = true := by rw [accepted, if_neg hdbuf, hal]; rfl
  rw [busWrite, if_pos hacc, writeEffect, if_neg hdbuf, if_pos (busy_of_phase_ne_idle hp)]
  rfl

/-- Settles O15: the dropped writes by R30's list, the others by the rule they obey idle or busy. -/
theorem registerWritesWhileBusy : Obligations.RegisterWritesWhileBusy := by
  intro s off d hp
  refine ⟨fun hoff => ?_, ?_, ?_, readOnlyAndReservedWritesIgnored s off d,
    fun n hge hal => busWrite_dbuf_dropped hp hge hal d, fun r _ hr => readAnswer_register s hr⟩
  · rcases List.mem_cons.1 hoff with rfl | hoperand
    · exact busWrite_dropped hp (r := .cmd) rfl List.mem_cons_self d
    · obtain ⟨r, hr, hreg⟩ := regAt_operand_offsets off hoperand
      exact busWrite_dropped hp hreg (List.mem_cons_of_mem _ hr) d
  · rintro rfl
    exact busWrite_ctrl s d
  · rintro rfl
    exact busWrite_status s d

/-! ### The issue of a command word -/

/-- R91: the opcodes of the opcode map. -/
theorem opcodeMap_opcode {opc : Byte} {v : Bool} {i : Instr} (h : opcodeMap opc v = some i) :
    (0x01 ≤ opc.toNat ∧ opc.toNat ≤ 0x07) ∨ (0x10 ≤ opc.toNat ∧ opc.toNat ≤ 0x14) ∨ opc.toNat = 0x20 := by
  unfold opcodeMap at h
  split at h
  case h_14 => cases h
  all_goals omega

/-- R92: what a word that decodes has passed. -/
theorem decode_ok {w : Word} {i : Instr} (h : decode w = .ok i) :
    opcodeMap (opcField w) (vField w) = some i ∧ reservedField w = 0 ∧ ¬ (vField w = true ∧ opcField w ≠ 0x07#8) := by
  unfold decode at h
  split at h
  case h_1 => cases h
  case h_2 j hmap =>
    split_ifs at h with hreserved hflag
    cases h
    exact ⟨hmap, not_not.1 hreserved, hflag⟩

/-- R92: none of the rule's three causes is met by a word that decodes. -/
theorem not_illegalWord_of_decode_ok {w : Word} {i : Instr} (h : decode w = .ok i) : ¬ IllegalWord w := by
  obtain ⟨hmap, hreserved, hflag⟩ := decode_ok h
  have hopc : (0x01 ≤ (w.extractLsb' 0 8).toNat ∧ (w.extractLsb' 0 8).toNat ≤ 0x07)
      ∨ (0x10 ≤ (w.extractLsb' 0 8).toNat ∧ (w.extractLsb' 0 8).toNat ≤ 0x14) ∨ (w.extractLsb' 0 8).toNat = 0x20 :=
    opcodeMap_opcode hmap
  rintro (h0 | h1 | h2 | h3 | hr | ⟨hv, hne⟩)
  · omega
  · omega
  · omega
  · omega
  · exact hr hreserved
  · exact hflag ⟨hv, fun heq => hne (congrArg BitVec.toNat heq)⟩

theorem engineStep_illegal {s : State} (hp : s.phase = .exec) (h : IllegalWord s.lt.cmd) :
    engineStep s = .next (afterFail s .illegalCmd) := by
  unfold engineStep runCommand
  rw [hp]
  cases hdec : decode s.lt.cmd with
  | ok i => exact absurd h (not_illegalWord_of_decode_ok hdec)
  | error e => rfl

theorem busWrite_cmd_idle {s : State} (hp : s.phase = .idle) (w : Word) :
    busWrite s 0x010#13 .four w = { issue s w with resp := some okayWrite } := by
  rw [busWrite_register s (r := .cmd) rfl, regWrite, busy_of_phase_idle hp]
  rfl

/-- Settles O19: the write of CMD is the issue while idle and is dropped while busy. -/
theorem cmdWriteIssues : Obligations.CmdWriteIssues := by
  refine ⟨fun _ => rfl, rfl, fun s w hp => ?_, fun s w hp => ?_⟩
  · rw [busWrite_cmd_idle hp]
    exact ⟨rfl, rfl, fun hw => engineStep_illegal rfl hw⟩
  · exact busWrite_dropped hp (r := .cmd) rfl List.mem_cons_self w

end Sys2Proof.Machine
end

section
/-! SUPPORT. The operand registers a command does not use have no effect on it (10_state.md R29, 30_encoding.md R94). -/

namespace Sys2Proof.Machine

/-- The state whose snapshot holds other operand values. -/
def withSnapshotOps (s : State) (ops : OperandRegs) : State := { s with lt := { s.lt with ops := ops } }

/-- R94: on the registers that `i` uses, `ops` holds the values of the snapshot. -/
structure AgreesOnUsed (i : Instr) (s : State) (ops : OperandRegs) : Prop where
  src0 : usesSrc0 i = true → ops.src0Addr = s.lt.ops.src0Addr ∧ ops.src0Len = s.lt.ops.src0Len
  src1 : usesSrc1 i = true → ops.src1Addr = s.lt.ops.src1Addr ∧ ops.src1Len = s.lt.ops.src1Len
  dst : usesDst i = true → ops.dstAddr = s.lt.ops.dstAddr ∧ ops.dstCap = s.lt.ops.dstCap

/-- R94: ZEROIZE alone has no destination. -/
theorem usesDst_of_ne_zeroize {i : Instr} (hz : i ≠ .zeroize) : usesDst i = true := by
  cases i with
  | zeroize => exact absurd rfl hz
  | _ => rfl

/-- R95: an unused source is not read, so its two register values may differ. -/
theorem readSource_withSnapshotOps (s : State) (ops : OperandRegs) {used : Bool} {addr len addr' len' : Word}
    (h : used = true → addr' = addr ∧ len' = len) :
    readSource (withSnapshotOps s ops) used addr' len' = readSource s used addr len := by
  cases used with
  | false => rfl
  | true =>
    obtain ⟨rfl, rfl⟩ := h rfl
    rfl

/-- R96: the destination check counts only for a command that has a destination. -/
theorem destinationFails_of_agreesOnUsed {i : Instr} {s : State} {ops : OperandRegs} (h : AgreesOnUsed i s ops)
    (need : Nat) :
    (usesDst i && destinationFails ops need) = (usesDst i && destinationFails s.lt.ops need) := by
  cases hd : usesDst i with
  | false => rfl
  | true =>
    obtain ⟨haddr, hcap⟩ := h.dst hd
    rw [destinationFails, destinationFails, haddr, hcap]

theorem operands_withSnapshotOps {i : Instr} {s : State} {ops : OperandRegs} (h : AgreesOnUsed i s ops) :
    operands i (withSnapshotOps s ops) = operands i s := by
  have hs0 : readSource (withSnapshotOps s ops) (usesSrc0 i) ops.src0Addr ops.src0Len
      = readSource s (usesSrc0 i) s.lt.ops.src0Addr s.lt.ops.src0Len := readSource_withSnapshotOps s ops h.src0
  have hs1 : readSource (withSnapshotOps s ops) (usesSrc1 i) ops.src1Addr ops.src1Len
      = readSource s (usesSrc1 i) s.lt.ops.src1Addr s.lt.ops.src1Len := readSource_withSnapshotOps s ops h.src1
  have hops : (withSnapshotOps s ops).lt.ops = ops := rfl
  simp only [operands, hops, hs0, hs1, destinationFails_of_agreesOnUsed h]

/-- R97 step 5: a body sees its source strings and the entropy inputs, not the snapshot. -/
theorem bodyOf_withSnapshotOps (i : Instr) (s : State) (ops : OperandRegs) :
    bodyOf i (withSnapshotOps s ops) = bodyOf i s := by
  cases i <;> rfl

/-- R97 steps 5 and 6: the outcome of the body depends on the destination's address only. -/
theorem finish_withSnapshotOps {s t : State} {ops : OperandRegs} {r : Except Stop Bytes}
    (haddr : ops.dstAddr = s.lt.ops.dstAddr) (h : finish s r = .next t) :
    finish (withSnapshotOps s ops) r = .next (withSnapshotOps t ops) := by
  rcases finish_cases h with ⟨out, rfl, hin, rfl⟩ | ⟨c, rfl, rfl⟩ | ⟨rfl, rfl⟩
  · rw [← haddr] at hin
    have hcommit : afterCommit (withSnapshotOps s ops) out = withSnapshotOps (afterCommit s out) ops := by
      simp only [afterCommit, withSnapshotOps, haddr]
    rw [← hcommit]
    exact commit_inside (s := withSnapshotOps s ops) hin
  · rfl
  · rfl

theorem exec_withSnapshotOps {i : Instr} {s t : State} {ops : OperandRegs} (h : AgreesOnUsed i s ops)
    (he : exec i s = .next t) : exec i (withSnapshotOps s ops) = .next (withSnapshotOps t ops) := by
  by_cases hz : i = .zeroize
  · subst hz
    cases he
    rfl
  · obtain ⟨haddr, -⟩ := h.dst (usesDst_of_ne_zeroize hz)
    rw [exec_eq_execute hz, execute] at he ⊢
    rw [operands_withSnapshotOps h, bodyOf_withSnapshotOps]
    exact finish_withSnapshotOps haddr he

/-- Settles O42: the checks, the body and the completion each see the used registers only. -/
theorem unusedOperandsIgnored : Obligations.UnusedOperandsIgnored :=
  fun _ _ _ _ h0 h1 hd he => exec_withSnapshotOps ⟨h0, h1, hd⟩ he

end Sys2Proof.Machine
end

section
/-! SUPPORT. The machine's invariant: it holds at reset and every step keeps it (10_state.md R34, R37). -/

namespace Sys2Proof.Machine

/-! ### Ways to keep the invariant -/

/-- `t` agrees with `s` on every field the invariant reads, but that `DONE` may have been cleared. -/
structure SameCommand (s t : State) : Prop where
  phase : t.phase = s.phase
  lt : t.lt = s.lt
  cmd : t.cmd = s.cmd
  ops : t.ops = s.ops
  err : t.err = s.err
  outLen : t.outLen = s.outLen
  dbuf : t.dbuf = s.dbuf
  ent : t.ent = s.ent
  done : s.done = false → t.done = false

theorem MachineInv.of_sameCommand {s t : State} (hs : MachineInv s) (h : SameCommand s t) : MachineInv t where
  dbuf_wf := by rw [h.dbuf]; exact hs.dbuf_wf
  running hp := by
    obtain ⟨hdone, herr, hout⟩ := hs.running (h.phase ▸ hp)
    exact ⟨h.done hdone, h.err.trans herr, h.outLen.trans hout⟩
  snapshot hp := by rw [h.lt, h.cmd, h.ops]; exact hs.snapshot (h.phase ▸ hp)
  waiting hp := by
    obtain ⟨i, srcs, hdec, hi, ho⟩ := hs.waiting (h.phase ▸ hp)
    exact ⟨i, srcs, h.cmd ▸ hdec, hi, (operands_congr h.lt h.dbuf).trans ho⟩
  no_answer := h.ent.trans hs.no_answer
  failed hf := h.outLen.trans (hs.failed (h.err ▸ hf))
  outLen_le := by rw [h.outLen]; exact hs.outLen_le

/-- While idle the invariant speaks of `DBUF`, the entropy inputs, `ERR` and `OUT_LEN` only. -/
theorem MachineInv.of_idle {t : State} (hwf : Memory.wf t.dbuf) (hp : t.phase = .idle) (hent : t.ent = none)
    (hfail : t.err ≠ .ok → t.outLen = 0) (hle : t.outLen.toNat ≤ Config.dbufSize) : MachineInv t where
  dbuf_wf := hwf
  running hbusy := absurd hp hbusy
  snapshot hbusy := absurd hp hbusy
  waiting hwait := by rw [hp] at hwait; cases hwait
  no_answer := hent
  failed := hfail
  outLen_le := hle

/-- Settles O7: right after reset the machine is idle, `DBUF` lists no byte and `OUT_LEN` is 0. -/
theorem resetMeetsInvariant : Obligations.ResetMeetsInvariant :=
  .of_idle Memory.wf_cleared rfl rfl (fun _ => rfl) (Nat.zero_le _)

theorem machineInv_resetState (s : State) : MachineInv (resetState s) :=
  resetMeetsInvariant.of_sameCommand ⟨rfl, rfl, rfl, rfl, rfl, rfl, rfl, rfl, id⟩

/-- The queue of events is no part of the invariant. -/
theorem MachineInv.with_env {s : State} (hs : MachineInv s) (evs : List Event) : MachineInv { s with env := evs } :=
  hs.of_sameCommand ⟨rfl, rfl, rfl, rfl, rfl, rfl, rfl, rfl, id⟩

/-- Neither is the last bus answer. -/
theorem MachineInv.with_resp {s : State} (hs : MachineInv s) (r : Option BusAnswer) :
    MachineInv { s with resp := r } :=
  hs.of_sameCommand ⟨rfl, rfl, rfl, rfl, rfl, rfl, rfl, rfl, id⟩

/-! ### Bus transactions -/

/-- R28: the snapshot is taken from the registers, and `DONE`, `ERR` and `OUT_LEN` are cleared. -/
theorem MachineInv.issue {s : State} (hs : MachineInv s) (w : Word) : MachineInv (issue s w) where
  dbuf_wf := hs.dbuf_wf
  running _ := ⟨rfl, rfl, rfl⟩
  snapshot _ := rfl
  waiting hwait := nomatch hwait
  no_answer := hs.no_answer
  failed hf := absurd rfl hf
  outLen_le := Nat.zero_le _

/-- While idle a bus write issues a command, or the machine stays idle with its result as it was. -/
theorem busWrite_while_idle {s : State} {off : Offset} {n : BusSize} {d : Word} (hp : s.phase = .idle) :
    (∃ r, busWrite s off n d = { issue s d with resp := r })
      ∨ ((busWrite s off n d).phase = .idle ∧ (busWrite s off n d).err = s.err
        ∧ (busWrite s off n d).outLen = s.outLen) := by
  have hidle := busy_of_phase_idle hp
  unfold busWrite
  split
  case isFalse hrefused => exact .inr ⟨hp, rfl, rfl⟩
  case isTrue haccepted =>
    unfold writeEffect
    split
    case isFalse hdbuf => right; simp [hidle, hp]
    case isTrue hregister =>
      split
      case h_2 hreserved => exact .inr ⟨hp, rfl, rfl⟩
      case h_1 r hr =>
        cases r
        case cmd => left; exact ⟨_, by rw [regWrite, hidle]; rfl⟩
        all_goals right; simp [regWrite, operandWrite, hidle, hp]

theorem MachineInv.busWrite {s : State} (hs : MachineInv s) (off : Offset) (n : BusSize) (d : Word) :
    MachineInv (busWrite s off n d) := by
  by_cases hp : s.phase = .idle
  · rcases busWrite_while_idle (off := off) (n := n) (d := d) hp with ⟨r, hissued⟩ | ⟨hphase, herr, hout⟩
    · rw [hissued]
      exact (hs.issue d).with_resp r
    · refine .of_idle (wf_busWrite hs.dbuf_wf) hphase ((busWrite_ent s off n d).trans hs.no_answer) ?_ ?_
      · rw [herr, hout]; exact hs.failed
      · rw [hout]; exact hs.outLen_le
  · obtain ⟨hphase, hlt, hcmd, hops, herr, hout, hdbuf, hent, hdone⟩ :=
      busWrite_while_busy (off := off) (n := n) (d := d) hp
    exact hs.of_sameCommand ⟨hphase, hlt, hcmd, hops, herr, hout, hdbuf, hent, hdone⟩

/-! ### The running command -/

/-- R324: a commit leaves an idle machine whose `OUT_LEN` counts an output inside `DBUF`. -/
theorem machineInv_afterCommit {s : State} {out : Bytes} (hwf : Memory.wf s.dbuf)
    (hin : s.lt.ops.dstAddr.toNat + out.length ≤ Config.dbufSize) : MachineInv (afterCommit s out) := by
  refine .of_idle (Memory.wf_writeBytes hwf hin) rfl rfl (fun hf => absurd rfl hf) ?_
  rw [afterCommit_outLen, BitVec.toNat_ofNat]
  exact (Nat.mod_le _ _).trans ((Nat.le_add_left _ _).trans hin)

theorem machineInv_afterFail {s : State} (hwf : Memory.wf s.dbuf) (c : Code) : MachineInv (afterFail s c) :=
  .of_idle hwf rfl rfl (fun _ => rfl) (Nat.zero_le _)

/-- R240: a command that starts to wait, or goes on waiting, has passed its checks. -/
theorem MachineInv.requestEntropy {s : State} {i : Instr} {srcs : Bytes × Bytes} (hs : MachineInv s)
    (hbusy : s.phase ≠ .idle) (hdec : decode s.lt.cmd = .ok i) (hi : i = .createKey ∨ i = .encrypt)
    (ho : operands i s = .ok srcs) : MachineInv (requestEntropy s) where
  dbuf_wf := hs.dbuf_wf
  running _ := hs.running hbusy
  snapshot _ := hs.snapshot hbusy
  waiting _ := by
    rw [hs.snapshot hbusy] at hdec
    exact ⟨i, srcs, hdec, hi, (operands_congr rfl rfl).trans ho⟩
  no_answer := rfl
  failed := hs.failed
  outLen_le := hs.outLen_le

/-- The command of the snapshot runs, with or without an entropy answer `e` on the inputs. -/
theorem MachineInv.runCommand {s t : State} (hs : MachineInv s) (hbusy : s.phase ≠ .idle) (e : Option EntropyAnswer)
    (h : runCommand { s with ent := e } = .next t) : MachineInv t := by
  unfold Machine.runCommand at h
  split at h
  case h_2 hillegal =>
    cases h
    exact machineInv_afterFail hs.dbuf_wf _
  case h_1 i hdec =>
    rcases exec_cases h with ⟨-, rfl⟩ | ⟨-, a, b, out, -, -, hin, rfl⟩ | ⟨-, c, rfl⟩ | ⟨a, b, hi, ho, -, rfl⟩
    · exact .of_idle Memory.wf_cleared rfl rfl (fun _ => rfl) (Nat.zero_le _)
    · exact machineInv_afterCommit hs.dbuf_wf hin
    · exact machineInv_afterFail hs.dbuf_wf c
    · exact hs.requestEntropy hbusy hdec hi ((operands_congr rfl rfl).trans ho)

theorem MachineInv.engineStep {s t : State} (hs : MachineInv s) (h : engineStep s = .next t) : MachineInv t := by
  cases hp : s.phase with
  | idle =>
    simp only [Machine.engineStep, hp] at h
    cases h
    exact hs
  | exec =>
    simp only [Machine.engineStep, hp] at h
    exact hs.runCommand (by simp [hp]) s.ent h
  | waitEnt =>
    simp only [Machine.engineStep, hp] at h
    exact hs.runCommand (by simp [hp]) s.ent h

theorem MachineInv.entropyArrives {s t : State} {a : EntropyAnswer} (hs : MachineInv s)
    (h : entropyArrives s a = .next t) : MachineInv t := by
  cases hp : s.phase with
  | waitEnt =>
    simp only [Machine.entropyArrives, hp] at h
    exact hs.runCommand (by simp [hp]) (some a) (by rw [hp]; exact h)
  | idle | exec =>
    simp only [Machine.entropyArrives, hp] at h
    cases h
    exact hs

theorem MachineInv.applyEvent {s t : State} {e : Event} (hs : MachineInv s) (h : applyEvent e s = .next t) :
    MachineInv t := by
  cases e with
  | busRead off n => cases h; exact hs.with_resp _
  | busWrite off n d => cases h; exact hs.busWrite off n d
  | engine => exact hs.engineStep h
  | entropy a => exact hs.entropyArrives h
  | reset => cases h; exact machineInv_resetState s

/-- Settles O8: the oldest event keeps the invariant, and so does the engine step taken when there is none. -/
theorem stepKeepsInvariant : Obligations.StepKeepsInvariant := by
  intro s t hs h
  unfold step at h
  split at h
  case h_1 hempty => exact hs.engineStep h
  case h_2 e rest henv => exact (hs.with_env rest).applyEvent h

end Sys2Proof.Machine
end

section
/-! SUPPORT. What a command leaves as it was, and where its output stands (20_memory.md R67; 60_exceptions.md R324,
R367). -/

namespace Sys2Proof.Machine

/-! ### A command leaves DBUF by no path, and answers a next state -/

theorem exec_answersNext (i : Instr) (s : State) : AnswersNext (exec i s) := by
  by_cases hz : i = .zeroize
  · subst hz
    exact ⟨_, rfl⟩
  · rcases operands_cases i s with ⟨c, hfail⟩ | ⟨-, -, -, -, hpass⟩
    · exact ⟨_, exec_of_fail hz hfail⟩
    · rcases bodyOf_cases hpass with ⟨out, hout, -⟩ | ⟨c, hfail⟩ | ⟨-, -, hwait⟩
      · exact ⟨_, exec_of_output hz hpass hout⟩
      · exact ⟨_, exec_of_body_fail hz hpass hfail⟩
      · exact ⟨_, exec_of_wait hz hpass hwait⟩

theorem runCommand_answersNext (s : State) : AnswersNext (runCommand s) := by
  unfold runCommand
  split
  case h_1 i hdec => exact exec_answersNext i s
  case h_2 e hillegal => exact ⟨_, rfl⟩

theorem engineStep_idle {s : State} (hp : s.phase = .idle) : engineStep s = .next s := by
  rw [engineStep, hp]

theorem engineStep_running {s : State} (hp : s.phase ≠ .idle) : engineStep s = runCommand s := by
  unfold engineStep
  split
  case h_1 hidle => exact absurd hidle hp
  case h_2 hexec => rfl
  case h_3 hwait => rfl

/-- R360 item 3: an answer nobody asked for is ignored. -/
theorem entropyArrives_unasked {s : State} (hp : s.phase ≠ .waitEnt) (a : EntropyAnswer) :
    entropyArrives s a = .next s := by
  unfold entropyArrives
  split
  case h_1 hidle => rfl
  case h_2 hexec => rfl
  case h_3 hwait => exact absurd hwait hp

theorem entropyArrives_waiting {s : State} (hp : s.phase = .waitEnt) (a : EntropyAnswer) :
    entropyArrives s a = runCommand { s with ent := some a } := by
  rw [entropyArrives, hp]

theorem engineStep_answersNext (s : State) : AnswersNext (engineStep s) := by
  by_cases hp : s.phase = .idle
  · exact ⟨s, engineStep_idle hp⟩
  · rw [engineStep_running hp]
    exact runCommand_answersNext s

theorem entropyArrives_answersNext (s : State) (a : EntropyAnswer) : AnswersNext (entropyArrives s a) := by
  by_cases hp : s.phase = .waitEnt
  · rw [entropyArrives_waiting hp]
    exact runCommand_answersNext _
  · exact ⟨s, entropyArrives_unasked hp a⟩

theorem applyEvent_answersNext (e : Event) (s : State) : AnswersNext (applyEvent e s) := by
  cases e with
  | busRead off n => exact ⟨_, rfl⟩
  | busWrite off n d => exact ⟨_, rfl⟩
  | engine => exact engineStep_answersNext s
  | entropy a => exact entropyArrives_answersNext s a
  | reset => exact ⟨_, rfl⟩

/-- Settles O5: every event answers, a command because its output fits the destination that R96 checked. -/
theorem everyStepAnswersNext : Obligations.EveryStepAnswersNext := by
  intro s
  unfold step
  split
  case h_1 hempty => exact engineStep_answersNext s
  case h_2 e rest henv => exact applyEvent_answersNext e _

/-! ### The frame of a command -/

/-- R60: `OUT_LEN` counts an output that lies inside `DBUF` without wrapping. -/
theorem toNat_outLen_afterCommit {s : State} {out : Bytes} (hin : s.lt.ops.dstAddr.toNat + out.length ≤ 4096) :
    (afterCommit s out).outLen.toNat = out.length := by
  rw [afterCommit_outLen, BitVec.toNat_ofNat]
  exact Nat.mod_eq_of_lt (by omega)

/-- Settles O40: the read after write of `DBUF`, at the snapshot's destination. -/
theorem committedOutputStandsAtDestination : Obligations.CommittedOutputStandsAtDestination :=
  fun _ _ x hwf hin => Memory.readByte_writeBytes hwf hin x

theorem exec_keeps_registers {i : Instr} {s t : State} (h : exec i s = .next t) :
    t.cmd = s.cmd ∧ t.ops = s.ops ∧ t.lt = s.lt ∧ t.ie = s.ie ∧ t.werr = s.werr ∧ t.resp = s.resp ∧ t.env = s.env := by
  rcases exec_cases h with ⟨-, rfl⟩ | ⟨-, a, b, out, -, -, -, rfl⟩ | ⟨-, c, rfl⟩ | ⟨a, b, -, -, -, rfl⟩
  all_goals exact ⟨rfl, rfl, rfl, rfl, rfl, rfl, rfl⟩

theorem exec_keeps_bytes_outside_output {i : Instr} {s t : State} (hwf : Memory.wf s.dbuf) (h : exec i s = .next t)
    (hz : i ≠ .zeroize) {x : Nat}
    (hx : x < s.lt.ops.dstAddr.toNat ∨ s.lt.ops.dstAddr.toNat + t.outLen.toNat ≤ x) :
    Memory.readByte t.dbuf x = Memory.readByte s.dbuf x := by
  rcases exec_cases h with ⟨hzero, -⟩ | ⟨-, a, b, out, -, -, hin, rfl⟩ | ⟨-, c, rfl⟩ | ⟨a, b, -, -, -, rfl⟩
  · exact absurd hzero hz
  · rw [toNat_outLen_afterCommit hin] at hx
    rw [committedOutputStandsAtDestination s out x hwf hin, if_neg (by omega)]
  · rfl
  · rfl

theorem exec_completed_done {i : Instr} {s t : State} (h : exec i s = .next t) (hp : t.phase = .idle) :
    t.done = true := by
  rcases exec_cases h with ⟨-, rfl⟩ | ⟨-, a, b, out, -, -, -, rfl⟩ | ⟨-, c, rfl⟩ | ⟨a, b, -, -, -, rfl⟩
  · rfl
  · rfl
  · rfl
  · exact nomatch hp

theorem exec_failed_keeps_dbuf {i : Instr} {s t : State} (h : exec i s = .next t) (hp : t.phase = .idle)
    (herr : t.err ≠ .ok) : t.dbuf = s.dbuf ∧ t.outLen = 0 := by
  rcases exec_cases h with ⟨-, rfl⟩ | ⟨-, a, b, out, -, -, -, rfl⟩ | ⟨-, c, rfl⟩ | ⟨a, b, -, -, -, rfl⟩
  · exact absurd rfl herr
  · exact absurd rfl herr
  · exact ⟨rfl, rfl⟩
  · exact nomatch hp

/-- Settles O39: each clause by the four things a command can do. -/
theorem commandFrame : Obligations.CommandFrame := fun _ _ _ hwf h =>
  ⟨exec_keeps_registers h, fun hz _ hx => exec_keeps_bytes_outside_output hwf h hz hx, exec_completed_done h,
    exec_failed_keeps_dbuf h⟩

end Sys2Proof.Machine
end

section
/-! SUPPORT. The bus window of `DBUF`, idle and busy, and the transactions of WBYTES (20_memory.md R64, R66;
30_encoding.md R99). -/

namespace Sys2Proof.Machine

/-! ### Little-endian words -/

/-- R8: the number `LE(B)` before it is put in a word. -/
def leNat (b : Bytes) : Nat := b.foldr (fun x acc => x.toNat + 256 * acc) 0

theorem leWord_eq_ofNat_leNat (b : Bytes) : leWord b = BitVec.ofNat 32 (leNat b) := rfl

/-- R8: digit `i` of `LE(B)` in base 256 is byte `i`, and 0 past the end. -/
theorem leNat_digit (b : Bytes) (i : Nat) : leNat b / 256 ^ i % 256 = (b.getD i 0).toNat := by
  induction b generalizing i with
  | nil => simp [leNat]
  | cons x xs ih =>
    have hcons : leNat (x :: xs) = x.toNat + 256 * leNat xs := rfl
    have hx : x.toNat < 256 := x.isLt
    cases i with
    | zero => rw [hcons, List.getD_cons_zero]; omega
    | succ i =>
      have htail : leNat (x :: xs) / 256 = leNat xs := by omega
      rw [pow_succ', ← Nat.div_div_eq_div_mul, htail, List.getD_cons_succ, ih]

theorem extractLsb'_leWord (b : Bytes) {i : Nat} (hi : i < 4) :
    (leWord b).extractLsb' (8 * i) 8 = b.getD i 0 := by
  apply BitVec.eq_of_toNat_eq
  rw [← leNat_digit, leWord_eq_ofNat_leNat, BitVec.extractLsb'_toNat, BitVec.toNat_ofNat, Nat.shiftRight_eq_div_pow,
    pow_mul]
  interval_cases i <;> omega

theorem length_leBytes (n : Nat) (d : Word) : (leBytes n d).length = n := by simp [leBytes]

theorem getD_leBytes {n i : Nat} (hi : i < n) (d : Word) : (leBytes n d).getD i 0 = d.extractLsb' (8 * i) 8 := by
  simp [leBytes, List.getD_eq_getElem?_getD, hi]

theorem Memory.getD_readBytes (m : Memory) (a n i : Nat) :
    (Memory.readBytes m a n).getD i 0 = if i < n then Memory.readByte m (a + i) else 0 := by
  by_cases hi : i < n
  · rw [if_pos hi, List.getD_eq_getElem _ _ (by simpa using hi), Memory.getElem_readBytes]
  · rw [if_neg hi, List.getD_eq_default _ _ (by simpa using hi)]

/-! ### Accesses of the window -/

/-- R64: an aligned access of the window of `DBUF` is accepted. -/
theorem accepted_dbuf {off : Offset} {n : BusSize} (hge : 0x1000 ≤ off.toNat) (hal : off.toNat % sizeBytes n = 0) :
    accepted off n = true := by
  rw [← Bool.not_eq_false, accepted_eq_false]
  omega

/-- R61: the window ends at a multiple of every size, so an aligned access lies inside `DBUF`. -/
theorem dbuf_access_inside {off : Offset} {n : BusSize} (hge : 0x1000 ≤ off.toNat)
    (hal : off.toNat % sizeBytes n = 0) : off.toNat - 0x1000 + sizeBytes n ≤ 4096 := by
  have hlt : off.toNat < 8192 := off.isLt
  cases n <;> simp only [sizeBytes] at hal ⊢ <;> omega

/-- R321: a refused transaction is answered `ERROR` and does nothing else. -/
theorem busRead_refused (s : State) {off : Offset} {n : BusSize} (h : accepted off n = false) :
    busRead s off n = { s with resp := some { resp := .error, data := 0 } } := by
  rw [busRead, readAnswer, h]
  rfl

theorem busWrite_refused (s : State) {off : Offset} {n : BusSize} (h : accepted off n = false) (d : Word) :
    busWrite s off n d = { s with resp := some { resp := .error, data := 0 } } := by
  rw [busWrite, h]
  rfl

section
variable {s : State} {off : Offset} {n : BusSize} (hge : 0x1000 ≤ off.toNat) (hal : off.toNat % sizeBytes n = 0)
include hge hal

theorem readAnswer_dbuf_idle (hp : s.phase = .idle) :
    readAnswer s off n
      = { resp := .okay, data := leWord (Memory.readBytes s.dbuf (off.toNat - 0x1000) (sizeBytes n)) } := by
  rw [readAnswer, if_pos (accepted_dbuf hge hal), readData, dbufOffset, if_neg (Nat.not_lt.2 hge),
    busy_of_phase_idle hp]
  rfl

theorem readAnswer_dbuf_busy (hp : s.phase ≠ .idle) : readAnswer s off n = { resp := .okay, data := 0 } := by
  rw [readAnswer, if_pos (accepted_dbuf hge hal), readData, dbufOffset, if_neg (Nat.not_lt.2 hge),
    if_pos (busy_of_phase_ne_idle hp)]

theorem busWrite_dbuf_idle (hp : s.phase = .idle) (d : Word) :
    busWrite s off n d
      = { s with dbuf := Memory.writeBytes s.dbuf (off.toNat - 0x1000) (leBytes (sizeBytes n) d),
                 resp := some okayWrite } := by
  rw [busWrite, if_pos (accepted_dbuf hge hal), writeEffect, dbufOffset, if_neg (Nat.not_lt.2 hge),
    busy_of_phase_idle hp]
  rfl

/-- R64: byte `i` of a read's data is byte `i` of the region, zero-extended. -/
theorem readAnswer_dbuf_byte (hp : s.phase = .idle) {i : Nat} (hi : i < 4) :
    (readAnswer s off n).data.extractLsb' (8 * i) 8
      = if i < sizeBytes n then Memory.readByte s.dbuf (off.toNat - 0x1000 + i) else 0#8 := by
  rw [readAnswer_dbuf_idle hge hal hp, extractLsb'_leWord _ hi, Memory.getD_readBytes]
  rfl

/-- R64: a write puts byte `i` of its value at byte `i` of the region, and leaves the rest of `DBUF`. -/
theorem busWrite_dbuf_byte (hwf : Memory.wf s.dbuf) (hp : s.phase = .idle) (d : Word) (x : Nat) :
    Memory.readByte (busWrite s off n d).dbuf x
      = if off.toNat - 0x1000 ≤ x ∧ x < off.toNat - 0x1000 + sizeBytes n
        then d.extractLsb' (8 * (x - (off.toNat - 0x1000))) 8 else Memory.readByte s.dbuf x := by
  have hin : off.toNat - 0x1000 + (leBytes (sizeBytes n) d).length ≤ Config.dbufSize := by
    rw [length_leBytes]
    exact dbuf_access_inside hge hal
  rw [busWrite_dbuf_idle hge hal hp, Memory.readByte_writeBytes hwf hin, length_leBytes]
  split
  case isTrue hx => exact getD_leBytes (by omega) d
  case isFalse hx => rfl

end

/-- Settles O13: a misaligned access is refused; an aligned one stays inside and goes byte by byte. -/
theorem dbufAccessIsLittleEndian : Obligations.DbufAccessIsLittleEndian := by
  refine ⟨fun s off n d hge hmis => ?_, fun s off n d hwf hp hge hal => ?_⟩
  · have hrefused : accepted off n = false := accepted_eq_false.2 (.inr (.inr ⟨hge, hmis⟩))
    exact ⟨busRead_refused s hrefused, busWrite_refused s hrefused d⟩
  · refine ⟨dbuf_access_inside hge hal, ?_, rfl, fun i hi => readAnswer_dbuf_byte hge hal hp hi,
      busWrite_dbuf_byte hge hal hwf hp d, ?_⟩
    · rw [readAnswer_dbuf_idle hge hal hp]
    · rw [busWrite_dbuf_idle hge hal hp]

/-- Settles O14: while busy a read of `DBUF` shows no byte of it and a write is dropped. -/
theorem dbufWhileBusy : Obligations.DbufWhileBusy := fun _ _ _ d hp hge hal =>
  ⟨readAnswer_dbuf_busy hge hal hp, busWrite_dbuf_dropped hp hge hal d⟩

end Sys2Proof.Machine
end

section
/-! SUPPORT. Runs over bus transactions: what those of WBYTES do to an idle machine, and that none sees the buffer of a
running command or reaches it (20_memory.md R66, R67, R69; 30_encoding.md R99; 70_reset_and_hazards.md R365). -/

namespace Sys2Proof.Machine

/-! ### A run over a queue of bus transactions -/

/-- The machine after the bus transaction at the head of its queue; any other event does nothing here. -/
def transact (s : State) : Event → State
  | .busRead off n => busRead { s with env := s.env.tail } off n
  | .busWrite off n d => busWrite { s with env := s.env.tail } off n d
  | .engine => s
  | .entropy _ => s
  | .reset => s

theorem step_transaction {s : State} {e : Event} {rest : List Event} (henv : s.env = e :: rest)
    (he : isTransaction e = true) : step s = .next (transact s e) ∧ (transact s e).env = rest := by
  cases e with
  | busRead off n => simp [step, transact, applyEvent, henv]
  | busWrite off n d => simp [step, transact, applyEvent, henv]
  | engine | entropy | reset => exact nomatch he

theorem stepN_succ_of_step {s t : State} (h : step s = .next t) (n : Nat) : stepN (n + 1) s = stepN n t := by
  rw [stepN, h]

/-- A queue of bus transactions is performed in its order, and used up. -/
theorem stepN_transactions {s : State} {evs : List Event} (henv : s.env = evs)
    (hevs : ∀ e ∈ evs, isTransaction e = true) :
    stepN evs.length s = .next (evs.foldl transact s) ∧ (evs.foldl transact s).env = [] := by
  induction evs generalizing s with
  | nil => exact ⟨rfl, henv⟩
  | cons e rest ih =>
    obtain ⟨hstep, htail⟩ := step_transaction henv (hevs e List.mem_cons_self)
    rw [List.length_cons, stepN_succ_of_step hstep, List.foldl_cons]
    exact ih htail fun e' he' => hevs e' (List.mem_cons_of_mem _ he')

/-! ### WBYTES -/

/-- R61: the window shows `DBUF[a]` at `0x1000 + a`. -/
theorem toNat_dbufOffset_add {a : Nat} (ha : a < 4096) : (BitVec.ofNat 13 (dbufOffset + a)).toNat = 0x1000 + a := by
  rw [BitVec.toNat_ofNat, dbufOffset]
  omega

/-- R64: a one-byte transfer carries the byte itself. -/
theorem leBytes_one_setWidth (v : Byte) : leBytes 1 (v.setWidth 32) = [v] := by
  have hlow : (v.setWidth 32).extractLsb' 0 8 = v := by
    apply BitVec.eq_of_toNat_eq
    rw [BitVec.extractLsb'_toNat, BitVec.toNat_setWidth]
    omega
  rw [leBytes, List.range_one, List.map_singleton, hlow]

/-- R99: one `W8` of WBYTES stores its byte. -/
theorem transact_wbyte {s : State} (hp : s.phase = .idle) {a : Nat} (ha : a < 4096) (v : Byte) :
    (transact s (.busWrite (BitVec.ofNat 13 (dbufOffset + a)) .one (v.setWidth 32))).phase = .idle
      ∧ (transact s (.busWrite (BitVec.ofNat 13 (dbufOffset + a)) .one (v.setWidth 32))).dbuf
        = Memory.writeByte s.dbuf a v := by
  have hoff := toNat_dbufOffset_add ha
  rw [transact, busWrite_dbuf_idle (s := { s with env := s.env.tail }) (by omega) (Nat.mod_one _) hp, hoff, sizeBytes,
    leBytes_one_setWidth, Nat.add_sub_cancel_left]
  exact ⟨hp, rfl⟩

theorem wbytesOps_are_transactions (a : Nat) (b : Bytes) :
    ∀ e ∈ (wbytesOps a b).map transaction, isTransaction e = true := by
  induction b generalizing a with
  | nil => exact fun e he => nomatch he
  | cons v bs ih => exact List.forall_mem_cons.2 ⟨rfl, ih (a + 1)⟩

/-- R99: the transactions of WBYTES together are the write of the whole string. -/
theorem foldl_transact_wbytes {s : State} (hp : s.phase = .idle) {a : Nat} {b : Bytes}
    (hb : a + b.length ≤ 4096) :
    (((wbytesOps a b).map transaction).foldl transact s).phase = .idle
      ∧ (((wbytesOps a b).map transaction).foldl transact s).dbuf = Memory.writeBytes s.dbuf a b := by
  induction b generalizing s a with
  | nil => exact ⟨hp, rfl⟩
  | cons v bs ih =>
    rw [List.length_cons] at hb
    obtain ⟨hphase, hdbuf⟩ := transact_wbyte hp (show a < 4096 by omega) v
    rw [Memory.writeBytes, ← hdbuf]
    exact ih hphase (by omega)

/-- Settles O59: the run of the queue is one write of the string, which reads back byte by byte. -/
theorem wbytesStoresTheString : Obligations.WbytesStoresTheString := by
  intro s a b hwf hp hb henv
  obtain ⟨hrun, hempty⟩ := stepN_transactions henv (wbytesOps_are_transactions a b)
  obtain ⟨hphase, hdbuf⟩ := foldl_transact_wbytes hp hb
  exact ⟨_, henv ▸ hrun, hphase, hempty, fun x => hdbuf ▸ Memory.readByte_writeBytes hwf hb x⟩

/-! ### A running command under bus transactions -/

theorem SameCommand.refl (s : State) : SameCommand s s := ⟨rfl, rfl, rfl, rfl, rfl, rfl, rfl, rfl, id⟩

/-- The queue of events is no part of the running command. -/
theorem with_env_sameCommand (s : State) (evs : List Event) : SameCommand s { s with env := evs } :=
  ⟨rfl, rfl, rfl, rfl, rfl, rfl, rfl, rfl, id⟩

theorem SameCommand.trans {s t u : State} (h : SameCommand s t) (h' : SameCommand t u) : SameCommand s u where
  phase := h'.phase.trans h.phase
  lt := h'.lt.trans h.lt
  cmd := h'.cmd.trans h.cmd
  ops := h'.ops.trans h.ops
  err := h'.err.trans h.err
  outLen := h'.outLen.trans h.outLen
  dbuf := h'.dbuf.trans h.dbuf
  ent := h'.ent.trans h.ent
  done hd := h'.done (h.done hd)

theorem transact_sameCommand {s : State} (hp : s.phase ≠ .idle) (e : Event) : SameCommand s (transact s e) := by
  cases e with
  | busRead off n => exact ⟨rfl, rfl, rfl, rfl, rfl, rfl, rfl, rfl, id⟩
  | busWrite off n d =>
    obtain ⟨hphase, hlt, hcmd, hops, herr, hout, hdbuf, hent, hdone⟩ :=
      busWrite_while_busy (s := { s with env := s.env.tail }) (off := off) (n := n) (d := d) hp
    exact ⟨hphase, hlt, hcmd, hops, herr, hout, hdbuf, hent, hdone⟩
  | engine | entropy | reset => exact .refl s

theorem foldl_transact_sameCommand {s : State} (hp : s.phase ≠ .idle) (evs : List Event) :
    SameCommand s (evs.foldl transact s) := by
  induction evs generalizing s with
  | nil => exact .refl s
  | cons e rest ih =>
    have hhead := transact_sameCommand hp e
    exact hhead.trans (ih (hhead.phase ▸ hp))

/-! ### The buffer of a running command is not seen -/

/-- The machine with another content of `DBUF`. -/
def withDbuf (s : State) (m : Memory) : State := { s with dbuf := m }

/-- R69: registers are read and written without a look at `DBUF`. -/
theorem regRead_withDbuf (s : State) (m : Memory) (r : Reg) : regRead (withDbuf s m) r = regRead s r := by
  cases r <;> rfl

theorem operandWrite_withDbuf (s : State) (m : Memory) (ops : OperandRegs) :
    operandWrite (withDbuf s m) ops = withDbuf (operandWrite s ops) m := by
  have hbusy : busy (withDbuf s m) = busy s := rfl
  unfold operandWrite
  rw [hbusy]
  split <;> rfl

theorem regWrite_withDbuf (s : State) (m : Memory) (r : Reg) (w : Word) :
    regWrite (withDbuf s m) r w = withDbuf (regWrite s r w) m := by
  have hbusy : busy (withDbuf s m) = busy s := rfl
  cases r with
  | id | cap | outLen | ctrl | status => rfl
  | cmd =>
    rw [regWrite, regWrite, hbusy]
    split <;> rfl
  | src0Addr | src0Len | src1Addr | src1Len | dstAddr | dstCap => exact operandWrite_withDbuf s m _

/-- R66: while a command runs, what a read answers does not depend on `DBUF`. -/
theorem readAnswer_withDbuf_busy {s : State} (hp : s.phase ≠ .idle) (m : Memory) (off : Offset) (n : BusSize) :
    readAnswer (withDbuf s m) off n = readAnswer s off n := by
  have hbusy := busy_of_phase_ne_idle hp
  have hbusy' : busy (withDbuf s m) = true := hbusy
  have hdata : readData (withDbuf s m) off n = readData s off n := by
    unfold readData
    rw [hbusy, hbusy']
    simp only [regRead_withDbuf, if_true]
  rw [readAnswer, readAnswer, hdata]

theorem busRead_withDbuf_busy {s : State} (hp : s.phase ≠ .idle) (m : Memory) (off : Offset) (n : BusSize) :
    busRead (withDbuf s m) off n = withDbuf (busRead s off n) m := by
  rw [busRead, busRead, readAnswer_withDbuf_busy hp]
  rfl

/-- R66: while a command runs, a write does the same over every content of `DBUF`, which it leaves as it was. -/
theorem busWrite_withDbuf_busy {s : State} (hp : s.phase ≠ .idle) (m : Memory) (off : Offset) (n : BusSize)
    (d : Word) :
    busWrite (withDbuf s m) off n d = withDbuf (busWrite s off n d) m := by
  have hbusy := busy_of_phase_ne_idle hp
  have hbusy' : busy (withDbuf s m) = true := hbusy
  have heffect : writeEffect (withDbuf s m) off n d = withDbuf (writeEffect s off n d) m := by
    unfold writeEffect
    rw [if_pos hbusy, if_pos hbusy']
    split
    case isFalse hdbuf => rfl
    case isTrue hregister =>
      cases regAt off.toNat with
      | none => rfl
      | some r => exact regWrite_withDbuf s m r d
  unfold busWrite
  rw [heffect]
  split <;> rfl

theorem transact_withDbuf_busy {s : State} (hp : s.phase ≠ .idle) (m : Memory) (e : Event) :
    transact (withDbuf s m) e = withDbuf (transact s e) m := by
  cases e with
  | busRead off n => exact busRead_withDbuf_busy (s := { s with env := s.env.tail }) hp m off n
  | busWrite off n d => exact busWrite_withDbuf_busy (s := { s with env := s.env.tail }) hp m off n d
  | engine | entropy | reset => rfl

theorem foldl_transact_withDbuf_busy {s : State} (hp : s.phase ≠ .idle) (m : Memory) (evs : List Event) :
    evs.foldl transact (withDbuf s m) = withDbuf (evs.foldl transact s) m := by
  induction evs generalizing s with
  | nil => rfl
  | cons e rest ih =>
    rw [List.foldl_cons, List.foldl_cons, transact_withDbuf_busy hp]
    exact ih ((transact_sameCommand hp e).phase ▸ hp)

/-- Settles O50: the two machines differ in `DBUF` only, transaction by transaction. -/
theorem busyHidesDataBuffer : Obligations.BusyHidesDataBuffer := by
  intro s m evs hp hevs
  have hsame := foldl_transact_sameCommand (s := { s with env := evs }) hp evs
  obtain ⟨hrun, -⟩ := stepN_transactions (s := { s with env := evs }) (evs := evs) rfl hevs
  obtain ⟨hrun', -⟩ := stepN_transactions (s := withDbuf { s with env := evs } m) (evs := evs) rfl hevs
  rw [foldl_transact_withDbuf_busy (s := { s with env := evs }) hp] at hrun'
  exact ⟨_, hrun, hrun', hsame.dbuf, hsame.phase⟩

/-! ### The running command is not reached -/

theorem afterCommit_sameCommand {s u : State} (h : SameCommand s u) (out : Bytes) :
    SameCommand (afterCommit s out) (afterCommit u out) :=
  ⟨rfl, h.lt, h.cmd, h.ops, rfl, rfl, by simp only [afterCommit_dbuf, h.dbuf, h.lt], rfl, id⟩

theorem afterFail_sameCommand {s u : State} (h : SameCommand s u) (c : Code) :
    SameCommand (afterFail s c) (afterFail u c) :=
  ⟨rfl, h.lt, h.cmd, h.ops, rfl, rfl, h.dbuf, rfl, id⟩

theorem requestEntropy_sameCommand {s u : State} (h : SameCommand s u) :
    SameCommand (requestEntropy s) (requestEntropy u) :=
  ⟨rfl, h.lt, h.cmd, h.ops, h.err, h.outLen, h.dbuf, rfl, h.done⟩

theorem finish_sameCommand {s u v0 : State} {r : Except Stop Bytes} (h : SameCommand s u)
    (hv : finish s r = .next v0) : ∃ v, finish u r = .next v ∧ SameCommand v0 v := by
  rcases finish_cases hv with ⟨out, rfl, hin, rfl⟩ | ⟨c, rfl, rfl⟩ | ⟨rfl, rfl⟩
  · rw [← h.lt] at hin
    exact ⟨_, commit_inside hin, afterCommit_sameCommand h out⟩
  · exact ⟨_, rfl, afterFail_sameCommand h c⟩
  · exact ⟨_, rfl, requestEntropy_sameCommand h⟩

/-- R97 step 5: a body sees its source strings and the entropy inputs only. -/
theorem bodyOf_sameCommand {s u : State} (h : SameCommand s u) (i : Instr) : bodyOf i u = bodyOf i s := by
  have hentropy : getEntropy16 u = getEntropy16 s := by rw [getEntropy16, getEntropy16, h.phase, h.ent]
  funext a b
  cases i with
  | createKey => exact hentropy
  | encrypt => rw [bodyOf, bodyOf, hentropy]
  | _ => rfl

theorem exec_sameCommand {i : Instr} {s u v0 : State} (h : SameCommand s u) (hv : exec i s = .next v0) :
    ∃ v, exec i u = .next v ∧ SameCommand v0 v := by
  by_cases hz : i = .zeroize
  · subst hz
    cases hv
    exact ⟨_, rfl, rfl, h.lt, h.cmd, h.ops, rfl, rfl, rfl, rfl, id⟩
  · rw [exec_eq_execute hz, execute] at hv ⊢
    rw [operands_congr h.lt h.dbuf, bodyOf_sameCommand h]
    exact finish_sameCommand h hv

theorem runCommand_sameCommand {s u v0 : State} (h : SameCommand s u) (hv : runCommand s = .next v0) :
    ∃ v, runCommand u = .next v ∧ SameCommand v0 v := by
  unfold runCommand at hv ⊢
  rw [h.lt]
  split at hv
  case h_1 i hdec => exact exec_sameCommand h hv
  case h_2 e hillegal =>
    cases hv
    exact ⟨_, rfl, afterFail_sameCommand h _⟩

theorem engineStep_sameCommand {s u v0 : State} (h : SameCommand s u) (hv : engineStep s = .next v0) :
    ∃ v, engineStep u = .next v ∧ SameCommand v0 v := by
  by_cases hp : s.phase = .idle
  · rw [engineStep_idle hp] at hv
    cases hv
    exact ⟨u, engineStep_idle (h.phase.trans hp), h⟩
  · rw [engineStep_running hp] at hv
    rw [engineStep_running (h.phase ▸ hp)]
    exact runCommand_sameCommand h hv

theorem with_answer_sameCommand {s u : State} (h : SameCommand s u) (a : EntropyAnswer) :
    SameCommand { s with ent := some a } { u with ent := some a } :=
  ⟨h.phase, h.lt, h.cmd, h.ops, h.err, h.outLen, h.dbuf, rfl, h.done⟩

theorem entropyArrives_sameCommand {s u v0 : State} {a : EntropyAnswer} (h : SameCommand s u)
    (hv : entropyArrives s a = .next v0) : ∃ v, entropyArrives u a = .next v ∧ SameCommand v0 v := by
  by_cases hp : s.phase = .waitEnt
  · rw [entropyArrives_waiting hp] at hv
    rw [entropyArrives_waiting (h.phase.trans hp)]
    exact runCommand_sameCommand (with_answer_sameCommand h a) hv
  · rw [entropyArrives_unasked hp] at hv
    cases hv
    exact ⟨u, entropyArrives_unasked (h.phase ▸ hp) a, h⟩

/-- Settles O51: the transactions leave all that the command and its completion read. -/
theorem transactionsDoNotReachRunningCommand : Obligations.TransactionsDoNotReachRunningCommand := by
  intro s evs hp hevs
  obtain ⟨hrun, -⟩ := stepN_transactions (s := { s with env := evs }) (evs := evs) rfl hevs
  have hsame : SameCommand s (evs.foldl transact { s with env := evs }) :=
    (with_env_sameCommand s evs).trans (foldl_transact_sameCommand (s := { s with env := evs }) hp evs)
  refine ⟨_, hrun, fun v0 hv => ?_, fun a v0 hv => ?_⟩
  · obtain ⟨v, hv', h⟩ := engineStep_sameCommand hsame hv
    exact ⟨v, hv', h.dbuf, h.err, h.outLen, h.phase, h.cmd, h.ops⟩
  · obtain ⟨v, hv', h⟩ := entropyArrives_sameCommand hsame hv
    exact ⟨v, hv', h.dbuf, h.err, h.outLen, h.phase, h.cmd, h.ops⟩

end Sys2Proof.Machine
end

section
/-! SUPPORT. The decoder and the encoder of command words are inverse to each other, and the words with no command are
those of the rule's list (30_encoding.md R90 to R93). -/

namespace Sys2Proof.Machine

/-! ### The fields of a word -/

/-- R90: `OPC`, `V` and the reserved bits are all of a word. -/
theorem word_eq_of_fields {w w' : Word} (hopc : opcField w = opcField w') (hv : vField w = vField w')
    (hreserved : reservedField w = reservedField w') : w = w' := by
  apply BitVec.eq_of_getLsbD_eq
  intro i hi
  rcases Nat.lt_trichotomy i 8 with hlow | rfl | hhigh
  · have hbit := congrArg (fun b => b.getLsbD i) hopc
    simpa [opcField, hlow] using hbit
  · exact hv
  · have hbit := congrArg (fun b => b.getLsbD (i - 9)) hreserved
    have hin : i - 9 < 23 := by omega
    have hidx : 9 + (i - 9) = i := by omega
    simpa [reservedField, hin, hidx] using hbit

/-- R90, R91, R93: the law of the legal fields, of every command. -/
theorem legalFields (i : Instr) : Laws.LegalFields.Statement i := by
  cases i with
  | createKey => exact Laws.LegalFields.createKey
  | derivePassphraseKey => exact Laws.LegalFields.derivePassphraseKey
  | deriveSubkeys => exact Laws.LegalFields.deriveSubkeys
  | wrapKey => exact Laws.LegalFields.wrapKey
  | unwrapKey => exact Laws.LegalFields.unwrapKey
  | encrypt => exact Laws.LegalFields.encrypt
  | decrypt v => exact Laws.LegalFields.decrypt v
  | sha256 => exact Laws.LegalFields.sha256
  | bcrypt => exact Laws.LegalFields.bcrypt
  | blockEnc => exact Laws.LegalFields.blockEnc
  | blockDec => exact Laws.LegalFields.blockDec
  | hmac => exact Laws.LegalFields.hmac
  | zeroize => exact Laws.LegalFields.zeroize

/-- R91: a command's word carries the opcode at which the map holds the command, and at DECRYPT's the flag too. -/
theorem encode_of_opcodeMap {opc : Byte} {v : Bool} {i : Instr} (h : opcodeMap opc v = some i) :
    opcField (encode i) = opc ∧ (opc = 0x07#8 → vField (encode i) = v) := by
  unfold opcodeMap at h
  split at h
  case h_7 hopc =>
    cases h
    obtain rfl : opc = 0x07#8 := BitVec.eq_of_toNat_eq hopc
    cases v <;> decide
  case h_14 => cases h
  all_goals
    rename_i hopc
    cases h
    exact ⟨BitVec.eq_of_toNat_eq hopc.symm, fun h7 => by simp [h7] at hopc⟩

/-! ### The decoder -/

/-- R91: every command's word decodes to the command. -/
theorem decode_encode (i : Instr) : decode (encode i) = .ok i := by
  cases i with
  | decrypt v => cases v <;> rfl
  | _ => rfl

/-- R92: no word but a command's own decodes to it. -/
theorem encode_of_decode_ok {w : Word} {i : Instr} (h : decode w = .ok i) : encode i = w := by
  obtain ⟨hmap, hreserved, hflag⟩ := decode_ok h
  obtain ⟨hopc, hdecrypt⟩ := encode_of_opcodeMap hmap
  obtain ⟨hreserved', hflag'⟩ := legalFields i
  refine word_eq_of_fields hopc ?_ (hreserved'.trans hreserved.symm)
  by_cases h7 : opcField w = 0x07#8
  · exact hdecrypt h7
  · have hv : vField w = false := eq_false_of_ne_true fun hv => hflag ⟨hv, h7⟩
    have hv' : vField (encode i) = false := eq_false_of_ne_true fun hv => by
      rw [hflag' hv] at hopc
      exact h7 hopc.symm
    rw [hv, hv']

/-- Settles O1: the decoder undoes the encoder, and the fields of a word that decodes are those of the encoding. -/
theorem decodeInvertsEncode : Obligations.DecodeInvertsEncode := fun _ i =>
  ⟨encode_of_decode_ok, fun h => h ▸ decode_encode i⟩

/-- Settles O2: the words of the table are the commands' encodings. -/
theorem legalWordsDecodeToTheirCommands : Obligations.LegalWordsDecodeToTheirCommands :=
  ⟨decode_encode .createKey, decode_encode .derivePassphraseKey, decode_encode .deriveSubkeys, decode_encode .wrapKey,
    decode_encode .unwrapKey, decode_encode .encrypt, decode_encode (.decrypt false), decode_encode (.decrypt true),
    decode_encode .sha256, decode_encode .bcrypt, decode_encode .blockEnc, decode_encode .blockDec,
    decode_encode .hmac, decode_encode .zeroize⟩

/-! ### Illegal words -/

/-- R91, R92: the opcodes that the map leaves out. -/
theorem opcode_of_opcodeMap_eq_none {opc : Byte} {v : Bool} (h : opcodeMap opc v = none) :
    opc.toNat = 0x00 ∨ (0x08 ≤ opc.toNat ∧ opc.toNat ≤ 0x0F) ∨ (0x15 ≤ opc.toNat ∧ opc.toNat ≤ 0x1F)
      ∨ (0x21 ≤ opc.toNat ∧ opc.toNat ≤ 0xFF) := by
  have hlt : opc.toNat < 256 := opc.isLt
  unfold opcodeMap at h
  split at h
  case h_14 =>
    simp only [imp_false] at *
    omega
  all_goals cases h

/-- R92: a word that decodes to no command has met one of the rule's three causes. -/
theorem illegalWord_of_decode_error {w : Word} {e : DecodeError} (h : decode w = .error e) : IllegalWord w := by
  unfold decode at h
  split at h
  case h_1 hmap =>
    rcases opcode_of_opcodeMap_eq_none hmap with h0 | h1 | h2 | h3
    · exact .inl h0
    · exact .inr (.inl h1)
    · exact .inr (.inr (.inl h2))
    · exact .inr (.inr (.inr (.inl h3)))
  case h_2 i hmap =>
    split_ifs at h with hreserved hflag
    · exact .inr (.inr (.inr (.inr (.inl hreserved))))
    · obtain ⟨hv, hne⟩ := hflag
      exact .inr (.inr (.inr (.inr (.inr ⟨hv, fun h7 => hne (BitVec.eq_of_toNat_eq h7)⟩))))

theorem illegalWord_iff (w : Word) : IllegalWord w ↔ ∀ i : Instr, decode w ≠ .ok i := by
  refine ⟨fun hillegal i hdec => not_illegalWord_of_decode_ok hdec hillegal, fun hnone => ?_⟩
  cases hdec : decode w with
  | ok i => exact absurd hdec (hnone i)
  | error e => exact illegalWord_of_decode_error hdec

theorem runCommand_illegal {s : State} (h : IllegalWord s.lt.cmd) : runCommand s = .next (afterFail s .illegalCmd) := by
  unfold runCommand
  split
  case h_1 i hdec => exact absurd h (not_illegalWord_of_decode_ok hdec)
  case h_2 e herror => rfl

/-- R28: a write of CMD while idle is an issue, whatever the word. -/
theorem regWrite_cmd_idle {s : State} (hp : s.phase = .idle) (w : Word) : regWrite s .cmd w = issue s w := by
  rw [regWrite, busy_of_phase_idle hp]
  rfl

/-- Settles O3: the decoder's errors are the rule's causes, and the engine turns each into `ILLEGAL_CMD`. -/
theorem illegalWordsCompleteWithIllegalCmd : Obligations.IllegalWordsCompleteWithIllegalCmd :=
  ⟨illegalWord_iff, fun _ w hp => regWrite_cmd_idle hp w,
    fun _ hp hillegal => (engineStep_running hp).trans (runCommand_illegal hillegal), .inl rfl⟩

end Sys2Proof.Machine
end

section
/-! SUPPORT. The order of a command's checks, and the entropy request that comes after them (30_encoding.md R94 to R97;
44_key_derivation.md R240). -/

namespace Sys2Proof.Machine

/-- Settles O38: the four places where the operand checks can stop, in their order. -/
theorem firstFailingCheckDecides : Obligations.FirstFailingCheckDecides := by
  rintro i s _ _ hz rfl rfl
  refine ⟨fun hu hout => ?_, fun h0 hu hout => ?_, fun h0 h1 => ⟨fun c hlen => ?_, fun hlen hroom => ?_⟩⟩
  · exact exec_of_fail hz (operands_src0_outside hu hout)
  · exact exec_of_fail hz (operands_src1_outside h0 hu hout)
  · exact exec_of_fail hz (operands_wrong_length h0 h1 hlen)
  · exact exec_of_fail hz (operands_no_room (usesDst_of_ne_zeroize hz) h0 h1 hlen hroom)

/-- R240: a command that leads to the wait asked for entropy, with its checks passed. -/
theorem exec_waits {i : Instr} {s t : State} (h : exec i s = .next t) (hp : t.phase = .waitEnt) :
    (i = .createKey ∨ i = .encrypt) ∧ ∃ a b, operands i s = .ok (a, b) := by
  rcases exec_cases h with ⟨-, rfl⟩ | ⟨-, a, b, out, -, -, -, rfl⟩ | ⟨-, c, rfl⟩ | ⟨a, b, hi, ho, -, -⟩
  · exact nomatch hp
  · exact nomatch hp
  · exact nomatch hp
  · exact ⟨hi, a, b, ho⟩

theorem createKey_checks {s : State} {a b : Bytes} (h : operands .createKey s = .ok (a, b)) : DestinationFits s 16 := by
  obtain ⟨-, -, -, -, -, hroom⟩ := operands_ok h
  exact hroom rfl

theorem encrypt_checks {s : State} {a b : Bytes} (h : operands .encrypt s = .ok (a, b)) :
    Source0Inside s ∧ Source1Inside s ∧ s.lt.ops.src0Len.toNat = 32
      ∧ DestinationFits s (65 + 16 * (s.lt.ops.src1Len.toNat / 16)) := by
  obtain ⟨ha, hb, h0, h1, hlen, hroom⟩ := operands_ok h
  have hkeys : a.length = 32 := by
    by_contra hne
    exact nomatch (if_pos hne).symm.trans hlen
  have hsrc0 : a = source0 s := ha
  have hsrc1 : b = source1 s := hb
  rw [hsrc0, length_source0] at hkeys
  rw [hsrc1, length_source1] at hroom
  exact ⟨h0 rfl, h1 rfl, hkeys, hroom rfl⟩

/-- Settles O46: the checks that each of the two waiting commands has passed. -/
theorem entropyRequestedOnlyAfterChecks : Obligations.EntropyRequestedOnlyAfterChecks := by
  intro i s t _ h hp
  obtain ⟨rfl | rfl, a, b, ho⟩ := exec_waits h hp
  · exact .inl ⟨rfl, createKey_checks ho⟩
  · exact .inr ⟨rfl, encrypt_checks ho⟩

end Sys2Proof.Machine
end

section
/-! SUPPORT. The transactions of ISSUE write the operands that a command lists and then issue it (10_state.md R28, R29;
30_encoding.md R98, R99; 70_reset_and_hazards.md R364). -/

namespace Sys2Proof.Machine

/-- What the transactions before the issue keep: the machine stays idle, and nothing is dropped or stored in `DBUF`. -/
structure StaysIdle (s t : State) : Prop where
  phase : t.phase = .idle
  werr : t.werr = s.werr
  dbuf : t.dbuf = s.dbuf

theorem StaysIdle.trans {s t u : State} (h : StaysIdle s t) (h' : StaysIdle t u) : StaysIdle s u :=
  ⟨h'.phase, h'.werr.trans h.werr, h'.dbuf.trans h.dbuf⟩

/-- From `s` to `t` the operand registers `ra` and `rl` alone were written, with the region `g` if one is listed. -/
structure WritesRegion (ra rl : Reg) (g : Option Region) (s t : State) : Prop where
  idle : StaysIdle s t
  listed : ∀ x, g = some x → regRead t ra = BitVec.ofNat 32 x.addr ∧ regRead t rl = BitVec.ofNat 32 x.len
  others : ∀ r ∈ operandRegs, r ≠ ra → r ≠ rl → regRead t r = regRead s r

/-! ### One operand register -/

/-- R29: the write of an operand register while idle changes the operand registers only. -/
theorem regWrite_operand {s : State} {r : Reg} (hp : s.phase = .idle) (hr : r ∈ operandRegs) (w : Word) :
    ∃ ops, regWrite s r w = { s with ops := ops } := by
  simp only [operandRegs, List.mem_cons, List.not_mem_nil, or_false] at hr
  rcases hr with rfl | rfl | rfl | rfl | rfl | rfl <;> exact ⟨_, operandWrite_idle hp _⟩

/-- R29: and of these the one written only. -/
theorem regRead_regWrite_other {s : State} {r : Reg} (hp : s.phase = .idle) (hr : r ∈ operandRegs) (w : Word) :
    ∀ r' ∈ operandRegs, r' ≠ r → regRead (regWrite s r w) r' = regRead s r' := by
  simp only [operandRegs, List.mem_cons, List.not_mem_nil, or_false] at hr
  rcases hr with rfl | rfl | rfl | rfl | rfl | rfl <;> simp [operandRegs, regWrite, operandWrite_idle hp, regRead]

/-- No register shows the queue of events or the last bus answer. -/
theorem regRead_with_env (s : State) (evs : List Event) (r : Reg) : regRead { s with env := evs } r = regRead s r := by
  cases r <;> rfl

theorem regRead_with_resp (s : State) (a : Option BusAnswer) (r : Reg) :
    regRead { s with resp := a } r = regRead s r := by
  cases r <;> rfl

/-- R29: the bus write of an operand register while idle. -/
theorem transact_operand {s : State} {off : Offset} {r : Reg} (hp : s.phase = .idle)
    (hoff : regAt off.toNat = some r) (hr : r ∈ operandRegs) (w : Word) :
    StaysIdle s (transact s (.busWrite off .four w))
      ∧ regRead (transact s (.busWrite off .four w)) r = w
      ∧ ∀ r' ∈ operandRegs, r' ≠ r → regRead (transact s (.busWrite off .four w)) r' = regRead s r' := by
  have hidle : ({ s with env := s.env.tail } : State).phase = .idle := hp
  rw [transact, busWrite_register _ hoff]
  refine ⟨?_, regRead_regWrite_operand hidle hr w _, fun r' hr' hne => ?_⟩
  · obtain ⟨ops, hops⟩ := regWrite_operand hidle hr w
    rw [hops]
    exact ⟨hp, rfl, rfl⟩
  · rw [regRead_with_resp, regRead_regWrite_other hidle hr w r' hr' hne, regRead_with_env]

/-! ### The operands of a command -/

/-- R99: the transactions of one operand, both of its registers or none. -/
theorem foldl_operandOps {s : State} {addrOff lenOff : Offset} {ra rl : Reg} (hp : s.phase = .idle)
    (haddr : regAt addrOff.toNat = some ra) (hlen : regAt lenOff.toNat = some rl) (hra : ra ∈ operandRegs)
    (hrl : rl ∈ operandRegs) (hne : ra ≠ rl) (g : Option Region) :
    WritesRegion ra rl g s (((operandOps addrOff lenOff g).map transaction).foldl transact s) := by
  cases g with
  | none => exact ⟨⟨hp, rfl, rfl⟩, fun x hx => (nomatch hx), fun r _ _ _ => rfl⟩
  | some x =>
    obtain ⟨hidle, hread, hkeep⟩ := transact_operand hp haddr hra (BitVec.ofNat 32 x.addr)
    obtain ⟨hidle', hread', hkeep'⟩ := transact_operand hidle.phase hlen hrl (BitVec.ofNat 32 x.len)
    refine ⟨hidle.trans hidle', ?_, fun r hr ha hl => (hkeep' r hr hl).trans (hkeep r hr ha)⟩
    rintro _ ⟨⟩
    exact ⟨(hkeep' ra hra hne).trans hread, hread'⟩

/-- R98: a listed operand fits its two registers, so they hold its numbers. -/
theorem listed_region_fits {used : Bool} {g : Option Region} {a l : Word} (hlisted : operandListed used g = true)
    (hval : ∀ x, g = some x → a = BitVec.ofNat 32 x.addr ∧ l = BitVec.ofNat 32 x.len) :
    ∀ x, g = some x → a.toNat = x.addr ∧ l.toNat = x.len := by
  rintro x rfl
  obtain ⟨rfl, rfl⟩ := hval x rfl
  simp only [operandListed, Region.fits, Bool.and_eq_true, decide_eq_true_eq] at hlisted
  obtain ⟨-, haddr, hlen⟩ := hlisted
  exact ⟨Nat.mod_eq_of_lt haddr, Nat.mod_eq_of_lt hlen⟩

/-- R99: the transactions of ISSUE before its write of CMD. -/
def operandTransactions (c : AsmCommand) : List Event :=
  (operandOps 0x014#13 0x018#13 c.s0 ++ operandOps 0x01C#13 0x020#13 c.s1 ++ operandOps 0x024#13 0x028#13 c.d).map
    transaction

theorem expand_issue (c : AsmCommand) : (expand (.issue c)).map transaction
    = operandTransactions c ++ [.busWrite 0x010#13 .four (encode c.instr)] :=
  List.map_append

/-- R98: the operand registers hold the operands that a written command lists. -/
structure HoldsOperands (c : AsmCommand) (ops : OperandRegs) : Prop where
  src0 : ∀ x, c.s0 = some x → ops.src0Addr.toNat = x.addr ∧ ops.src0Len.toNat = x.len
  src1 : ∀ x, c.s1 = some x → ops.src1Addr.toNat = x.addr ∧ ops.src1Len.toNat = x.len
  dst : ∀ x, c.d = some x → ops.dstAddr.toNat = x.addr ∧ ops.dstCap.toNat = x.len

/-- R98, R99: those transactions write the operands, one region after another. -/
theorem foldl_operandTransactions {c : AsmCommand} {s : State} (hc : c.wellFormed = true) (hp : s.phase = .idle) :
    StaysIdle s ((operandTransactions c).foldl transact s)
      ∧ HoldsOperands c ((operandTransactions c).foldl transact s).ops := by
  simp only [AsmCommand.wellFormed, Bool.and_eq_true] at hc
  obtain ⟨⟨hd, hs0⟩, hs1⟩ := hc
  have h0 := foldl_operandOps (addrOff := 0x014#13) (lenOff := 0x018#13) hp rfl rfl (by decide) (by decide)
    (by decide) c.s0
  have h1 := foldl_operandOps (addrOff := 0x01C#13) (lenOff := 0x020#13) h0.idle.phase rfl rfl (by decide) (by decide)
    (by decide) c.s1
  have h2 := foldl_operandOps (addrOff := 0x024#13) (lenOff := 0x028#13) h1.idle.phase rfl rfl (by decide) (by decide)
    (by decide) c.d
  rw [operandTransactions, List.map_append, List.map_append, List.foldl_append, List.foldl_append]
  refine ⟨(h0.idle.trans h1.idle).trans h2.idle, listed_region_fits hs0 fun x hx => ?_,
    listed_region_fits hs1 fun x hx => ?_, listed_region_fits hd h2.listed⟩
  · obtain ⟨haddr, hlen⟩ := h0.listed x hx
    exact ⟨((h2.others .src0Addr (by decide) (by decide) (by decide)).trans
        (h1.others .src0Addr (by decide) (by decide) (by decide))).trans haddr,
      ((h2.others .src0Len (by decide) (by decide) (by decide)).trans
        (h1.others .src0Len (by decide) (by decide) (by decide))).trans hlen⟩
  · obtain ⟨haddr, hlen⟩ := h1.listed x hx
    exact ⟨(h2.others .src1Addr (by decide) (by decide) (by decide)).trans haddr,
      (h2.others .src1Len (by decide) (by decide) (by decide)).trans hlen⟩

/-! ### The issue -/

theorem isTransaction_transaction (op : HostOp) : isTransaction (transaction op) = true := by
  cases op <;> rfl

theorem ops_are_transactions (p : List HostOp) : ∀ e ∈ p.map transaction, isTransaction e = true :=
  List.forall_mem_map.2 fun op _ => isTransaction_transaction op

/-- R28: the bus write of CMD while idle issues the command with the operand registers as its snapshot. -/
theorem transact_cmd {s : State} (hp : s.phase = .idle) (w : Word) :
    transact s (.busWrite 0x010#13 .four w)
      = { issue { s with env := s.env.tail } w with resp := some okayWrite } :=
  busWrite_cmd_idle (s := { s with env := s.env.tail }) hp w

/-- Settles O58: the operand writes one region at a time, then the write of CMD, whose snapshot is the registers. -/
theorem issueExpansionIssuesTheCommand : Obligations.IssueExpansionIssuesTheCommand := by
  intro c s hc hp henv
  obtain ⟨hrun, hempty⟩ := stepN_transactions henv (ops_are_transactions _)
  obtain ⟨hidle, hops⟩ := foldl_operandTransactions hc hp
  rw [expand_issue] at henv hrun hempty
  rw [List.foldl_append, List.foldl_cons, List.foldl_nil, transact_cmd hidle.phase] at hrun hempty
  rw [henv]
  exact ⟨_, hrun, rfl, rfl, rfl, hidle.werr, hidle.dbuf, hempty, hops.src0, hops.src1, hops.dst⟩

end Sys2Proof.Machine
end

section
/-! SUPPORT. SHA256 as a command: its two checks, source and room, and its output (40_sha256.md R128). -/

namespace Sys2Proof.Machine

/-- R94, R97: SHA256 has no second source and no length check, so two checks are all it has to pass. -/
theorem operands_sha256_pass {s : State} (hsrc : Source0Inside s) (hroom : DestinationFits s 32) :
    operands .sha256 s = .ok (source0 s, []) :=
  operands_pass (i := .sha256) (fun _ => hsrc) (fun hused => nomatch hused) rfl hroom

/-- R128: both of these checks answer `RANGE`. -/
theorem operands_sha256_fail {s : State} (h : ¬ (Source0Inside s ∧ DestinationFits s 32)) :
    operands .sha256 s = .error (.fail .range) := by
  by_cases hsrc : Source0Inside s
  · have hroom : ¬ DestinationFits s 32 := fun hroom => h ⟨hsrc, hroom⟩
    exact operands_no_room (i := .sha256) rfl (fun _ => hsrc) (fun hused => nomatch hused) rfl hroom
  · exact operands_src0_outside rfl hsrc

theorem outLen_afterCommit_sha256 (s : State) (m : Bytes) : (afterCommit s (sha256 m)).outLen = 32#32 := by
  rw [afterCommit_outLen, length_sha256]

/-- Settles O32: the digest is SHA256's body where both checks pass, and a failing check decides otherwise. -/
theorem sha256StoresTheDigest : Obligations.Sha256StoresTheDigest :=
  ⟨decode_encode .sha256, fun s =>
    ⟨fun hsrc hroom =>
      ⟨exec_of_output (nomatch ·) (operands_sha256_pass hsrc hroom) rfl, outLen_afterCommit_sha256 s (source0 s)⟩,
    fun hfails => exec_of_fail (nomatch ·) (operands_sha256_fail hfails)⟩⟩

end Sys2Proof.Machine
end

section
/-! SUPPORT. BCRYPT as a command: its checks in order and its output, and DERIVE_PASSPHRASE_KEY as the first 16 bytes of
that output (41_bcrypt.md R159; 44_key_derivation.md R242, R243). -/

namespace Sys2Proof.Machine

/-- R97 step 2: a command that uses both sources stops with `RANGE` when either leaves `DBUF`. -/
theorem operands_source_outside {i : Instr} {s : State} (hu0 : usesSrc0 i = true) (hu1 : usesSrc1 i = true)
    (h : ¬ (Source0Inside s ∧ Source1Inside s)) : operands i s = .error (.fail .range) := by
  by_cases h0 : Source0Inside s
  · exact operands_src1_outside (fun _ => h0) hu1 fun h1 => h ⟨h0, h1⟩
  · exact operands_src0_outside hu0 h0

/-! ### The length checks of BCRYPT -/

/-- R159: the key's length is checked before the salt's, so the salt does not matter here. -/
theorem lengthChecks_bcrypt_key {key : Bytes} (h : key.length < 1 ∨ 72 < key.length) (salt : Bytes) :
    lengthChecks .bcrypt key salt = some .inputLength :=
  if_pos h

/-- R159: a key of 1 to 72 bytes leaves the salt to decide. -/
theorem lengthChecks_bcrypt_of_key {key : Bytes} (hmin : 1 ≤ key.length) (hmax : key.length ≤ 72) (salt : Bytes) :
    lengthChecks .bcrypt key salt = if salt.length ≠ 16 then some .invalidSalt else none := by
  have hkey : ¬ (key.length < 1 ∨ key.length > Config.bcryptKeyMax) := by
    simp only [Config.bcryptKeyMax]
    omega
  exact if_neg hkey

theorem lengthChecks_bcrypt_salt {key salt : Bytes} (hmin : 1 ≤ key.length) (hmax : key.length ≤ 72)
    (hsalt : salt.length ≠ 16) : lengthChecks .bcrypt key salt = some .invalidSalt :=
  (lengthChecks_bcrypt_of_key hmin hmax salt).trans (if_pos hsalt)

theorem lengthChecks_bcrypt_pass {key salt : Bytes} (hmin : 1 ≤ key.length) (hmax : key.length ≤ 72)
    (hsalt : salt.length = 16) : lengthChecks .bcrypt key salt = none :=
  (lengthChecks_bcrypt_of_key hmin hmax salt).trans (if_neg (not_not.2 hsalt))

/-! ### The command BCRYPT -/

/-- R159: what BCRYPT asks of its sources: both inside `DBUF`, a key of 1 to 72 bytes and a salt of 16. -/
structure BcryptSources (s : State) : Prop where
  src0 : Source0Inside s
  src1 : Source1Inside s
  keyMin : 1 ≤ s.lt.ops.src0Len.toNat
  keyMax : s.lt.ops.src0Len.toNat ≤ 72
  salt : s.lt.ops.src1Len.toNat = 16

theorem BcryptSources.lengthChecks {s : State} (h : BcryptSources s) :
    lengthChecks .bcrypt (source0 s) (source1 s) = none :=
  lengthChecks_bcrypt_pass (h.keyMin.trans_eq (length_source0 s).symm) ((length_source0 s).trans_le h.keyMax)
    ((length_source1 s).trans h.salt)

theorem exec_bcrypt_source_outside {s : State} (h : ¬ (Source0Inside s ∧ Source1Inside s)) :
    exec .bcrypt s = .next (afterFail s .range) :=
  exec_of_fail (nomatch ·) (operands_source_outside rfl rfl h)

theorem exec_bcrypt_wrong_length {s : State} {c : Code} (h0 : Source0Inside s) (h1 : Source1Inside s)
    (h : lengthChecks .bcrypt (source0 s) (source1 s) = some c) : exec .bcrypt s = .next (afterFail s c) :=
  exec_of_fail (nomatch ·) (operands_wrong_length (fun _ => h0) (fun _ => h1) h)

theorem exec_bcrypt_no_room {s : State} (h : BcryptSources s) (hroom : ¬ DestinationFits s 24) :
    exec .bcrypt s = .next (afterFail s .range) :=
  exec_of_fail (nomatch ·) (operands_no_room rfl (fun _ => h.src0) (fun _ => h.src1) h.lengthChecks hroom)

theorem exec_bcrypt_output {s : State} (h : BcryptSources s) (hroom : DestinationFits s 24) :
    exec .bcrypt s = .next (afterCommit s (bcryptHash 8 (source1 s) (source0 s))) :=
  exec_of_output (nomatch ·)
    (operands_pass (i := .bcrypt) (fun _ => h.src0) (fun _ => h.src1) h.lengthChecks hroom) rfl

theorem outLen_afterCommit_bcryptHash (s : State) (cost : Nat) (salt key : Bytes) :
    (afterCommit s (bcryptHash cost salt key)).outLen = 24#32 := by
  rw [afterCommit_outLen, length_bcryptHash]

/-- Settles O33: one case per check in R159's order, then the output. -/
theorem bcryptStoresTheRawOutput : Obligations.BcryptStoresTheRawOutput := by
  refine ⟨decode_encode .bcrypt, fun s => ⟨exec_bcrypt_source_outside, fun h0 h1 => ⟨fun hkey => ?_,
    fun hmin hmax hsalt => ?_, fun hmin hmax hsalt hroom => ?_, fun hmin hmax hsalt hroom => ?_⟩⟩⟩
  · rw [← length_source0] at hkey
    exact exec_bcrypt_wrong_length h0 h1 (lengthChecks_bcrypt_key hkey _)
  · rw [← length_source0] at hmin hmax
    rw [← length_source1] at hsalt
    exact exec_bcrypt_wrong_length h0 h1 (lengthChecks_bcrypt_salt hmin hmax hsalt)
  · exact exec_bcrypt_no_room ⟨h0, h1, hmin, hmax, hsalt⟩ hroom
  · exact ⟨exec_bcrypt_output ⟨h0, h1, hmin, hmax, hsalt⟩ hroom, outLen_afterCommit_bcryptHash s 8 _ _⟩

/-! ### DERIVE_PASSPHRASE_KEY and BCRYPT -/

/-- R243: the salt's length is the one length that DERIVE_PASSPHRASE_KEY checks. -/
theorem lengthChecks_derivePassphraseKey_pass {salt : Bytes} (hsalt : salt.length = 16) (pw : Bytes) :
    lengthChecks .derivePassphraseKey pw salt = none :=
  if_neg (not_not.2 hsalt)

theorem exec_derivePassphraseKey_output {s : State} (h0 : Source0Inside s) (h1 : Source1Inside s)
    (hsalt : s.lt.ops.src1Len.toNat = 16) (hroom : DestinationFits s 16) :
    exec .derivePassphraseKey s = .next (afterCommit s (passphraseKey (source0 s) (source1 s))) := by
  have hlen : lengthChecks .derivePassphraseKey (source0 s) (source1 s) = none :=
    lengthChecks_derivePassphraseKey_pass ((length_source1 s).trans hsalt) _
  exact exec_of_output (nomatch ·)
    (operands_pass (i := .derivePassphraseKey) (fun _ => h0) (fun _ => h1) hlen hroom) rfl

/-- A digest is a key that BCRYPT takes: 32 bytes lie between R159's bounds. -/
theorem bcryptSources_of_digest {u : State} {m salt : Bytes} (h0 : Source0Inside u) (h1 : Source1Inside u)
    (hkey : source0 u = sha256 m) (hsalt : source1 u = salt) (hlen : salt.length = 16) : BcryptSources u := by
  have hkeyLen : u.lt.ops.src0Len.toNat = 32 := by rw [← length_source0, hkey, length_sha256]
  have hsaltLen : u.lt.ops.src1Len.toNat = 16 := by rw [← length_source1, hsalt, hlen]
  exact ⟨h0, h1, by omega, by omega, hsaltLen⟩

/-- Settles O57: both commands complete, and R242 cuts its key from the hash that BCRYPT stores. -/
theorem passphraseKeyIsBcryptPrefix : Obligations.PassphraseKeyIsBcryptPrefix := by
  intro s u h0 h1 hsalt hroom hu0 hu1 huroom hkey hsame
  have hu : BcryptSources u :=
    bcryptSources_of_digest hu0 hu1 hkey hsame ((length_source1 s).trans hsalt)
  have hout := exec_bcrypt_output hu huroom
  rw [hkey, hsame] at hout
  exact ⟨_, hout, exec_derivePassphraseKey_output h0 h1 hsalt hroom⟩

end Sys2Proof.Machine
end

section
/-! SUPPORT. The S-box tables against their definition (42_block_cipher.md R182). -/

namespace Sys2Proof.Machine

/-- R182: the affine map `A`. -/
def sboxAffine (y : Byte) : Byte :=
  y ^^^ y.rotateLeft 1 ^^^ y.rotateLeft 2 ^^^ y.rotateLeft 3 ^^^ y.rotateLeft 4 ^^^ 0x63#8

/-- The inverse of `A`; on a table value of `Sbox` it gives the field inverse that R182 starts from. -/
def sboxAffineInv (z : Byte) : Byte := z.rotateLeft 1 ^^^ z.rotateLeft 3 ^^^ z.rotateLeft 6 ^^^ 0x05#8

theorem sboxAffine_sboxAffineInv : ∀ z : Byte, sboxAffine (sboxAffineInv z) = z := by
  decide +kernel

theorem sboxAffineInv_sbox_zero : sboxAffineInv (sbox 0) = 0 := by decide

/-- R182: the table was made from the field inverse. -/
theorem gfMul_sboxAffineInv_sbox : ∀ b : Byte, b ≠ 0 → gfMul b (sboxAffineInv (sbox b)) = 0x01#8 := by
  decide +kernel

theorem invSbox_sbox : ∀ b : Byte, invSbox (sbox b) = b := by
  decide +kernel

/-- Settles O52: undoing the affine map on the table's value gives the field inverse. -/
theorem sboxTablesMeetTheirDefinition : Obligations.SboxTablesMeetTheirDefinition := fun b =>
  ⟨⟨sboxAffineInv (sbox b), fun hzero => hzero ▸ sboxAffineInv_sbox_zero, gfMul_sboxAffineInv_sbox b,
    (sboxAffine_sboxAffineInv (sbox b)).symm⟩, invSbox_sbox b⟩

end Sys2Proof.Machine
end

section
/-! SUPPORT. Products in GF(2^8) by a constant, and the inverse of MixColumns (42_block_cipher.md R181, R184). -/

namespace Sys2Proof.Machine

/-! ### The product is linear in its second factor -/

/-- R181: what bit `i` of `b` adds to the product `a . b`. -/
def gfTerm (a b : Byte) (i : Nat) : Byte := if b.getLsbD i then repeatN xtime i a else 0x00#8

/-- A bit set in both summands gives the same term twice, which cancels. -/
theorem gfTerm_xor (a b c : Byte) (i : Nat) : gfTerm a (b ^^^ c) i = gfTerm a b i ^^^ gfTerm a c i := by
  unfold gfTerm
  rw [BitVec.getLsbD_xor]
  cases b.getLsbD i <;> cases c.getLsbD i <;> simp

theorem gfMul_eq_foldl_gfTerm (a b : Byte) :
    gfMul a b = (List.range 8).foldl (fun acc i => acc ^^^ gfTerm a b i) 0x00#8 := by
  unfold gfMul
  congr 1
  funext acc i
  unfold gfTerm
  split <;> simp

theorem foldl_gfTerm_xor (a b c : Byte) (bits : List Nat) (x y : Byte) :
    bits.foldl (fun acc i => acc ^^^ gfTerm a (b ^^^ c) i) (x ^^^ y)
      = bits.foldl (fun acc i => acc ^^^ gfTerm a b i) x ^^^ bits.foldl (fun acc i => acc ^^^ gfTerm a c i) y := by
  induction bits generalizing x y with
  | nil => rfl
  | cons i bits ih =>
    have hstep : x ^^^ y ^^^ gfTerm a (b ^^^ c) i = x ^^^ gfTerm a b i ^^^ (y ^^^ gfTerm a c i) := by
      rw [gfTerm_xor]
      ac_rfl
    rw [List.foldl_cons, hstep, ih, List.foldl_cons, List.foldl_cons]

theorem gfMul_xor (a b c : Byte) : gfMul a (b ^^^ c) = gfMul a b ^^^ gfMul a c := by
  simp only [gfMul_eq_foldl_gfTerm]
  exact foldl_gfTerm_xor a b c (List.range 8) 0 0

/-! ### The two column matrices -/

/-- R184: a row of MixColumns, from the column turned so that its own byte comes first. -/
def mixRow (a0 a1 a2 a3 : Byte) : Byte := gfMul 2 a0 ^^^ gfMul 3 a1 ^^^ a2 ^^^ a3

/-- R184: a row of InvMixColumns, from the column turned so that its own byte comes first. -/
def invMixRow (b0 b1 b2 b3 : Byte) : Byte := gfMul 14 b0 ^^^ gfMul 11 b1 ^^^ gfMul 13 b2 ^^^ gfMul 9 b3

/-- The rows of MixColumns are turns of one row. -/
theorem mixColumn_eq_mixRows (a0 a1 a2 a3 : Byte) :
    mixColumn a0 a1 a2 a3 = [mixRow a0 a1 a2 a3, mixRow a1 a2 a3 a0, mixRow a2 a3 a0 a1, mixRow a3 a0 a1 a2] := by
  simp only [mixColumn, mixRow, List.cons.injEq, and_true, true_and]
  refine ⟨?_, ?_, ?_⟩ <;> ac_rfl

/-- The rows of InvMixColumns are turns of one row. -/
theorem invMixColumn_eq_invMixRows (b0 b1 b2 b3 : Byte) :
    invMixColumn b0 b1 b2 b3
      = [invMixRow b0 b1 b2 b3, invMixRow b1 b2 b3 b0, invMixRow b2 b3 b0 b1, invMixRow b3 b0 b1 b2] := by
  simp only [invMixColumn, invMixRow, List.cons.injEq, and_true, true_and]
  refine ⟨?_, ?_, ?_⟩ <;> ac_rfl

/-- The diagonal of the product of the two matrices is 1. -/
theorem invMix_mix_diagonal :
    ∀ a : Byte, gfMul 14 (gfMul 2 a) ^^^ gfMul 11 a ^^^ gfMul 13 a ^^^ gfMul 9 (gfMul 3 a) = a := by decide +kernel

/-- The other three entries of a row of the product are 0. -/
theorem invMix_mix_offset_one :
    ∀ a : Byte, gfMul 14 (gfMul 3 a) ^^^ gfMul 11 (gfMul 2 a) ^^^ gfMul 13 a ^^^ gfMul 9 a = 0x00#8 := by
  decide +kernel

theorem invMix_mix_offset_two :
    ∀ a : Byte, gfMul 14 a ^^^ gfMul 11 (gfMul 3 a) ^^^ gfMul 13 (gfMul 2 a) ^^^ gfMul 9 a = 0x00#8 := by
  decide +kernel

theorem invMix_mix_offset_three :
    ∀ a : Byte, gfMul 14 a ^^^ gfMul 11 a ^^^ gfMul 13 (gfMul 3 a) ^^^ gfMul 9 (gfMul 2 a) = 0x00#8 := by
  decide +kernel

theorem invMixRow_mixRows (a0 a1 a2 a3 : Byte) :
    invMixRow (mixRow a0 a1 a2 a3) (mixRow a1 a2 a3 a0) (mixRow a2 a3 a0 a1) (mixRow a3 a0 a1 a2) = a0 := by
  calc invMixRow (mixRow a0 a1 a2 a3) (mixRow a1 a2 a3 a0) (mixRow a2 a3 a0 a1) (mixRow a3 a0 a1 a2)
      = (gfMul 14 (gfMul 2 a0) ^^^ gfMul 11 a0 ^^^ gfMul 13 a0 ^^^ gfMul 9 (gfMul 3 a0))
        ^^^ (gfMul 14 (gfMul 3 a1) ^^^ gfMul 11 (gfMul 2 a1) ^^^ gfMul 13 a1 ^^^ gfMul 9 a1)
        ^^^ (gfMul 14 a2 ^^^ gfMul 11 (gfMul 3 a2) ^^^ gfMul 13 (gfMul 2 a2) ^^^ gfMul 9 a2)
        ^^^ (gfMul 14 a3 ^^^ gfMul 11 a3 ^^^ gfMul 13 (gfMul 3 a3) ^^^ gfMul 9 (gfMul 2 a3)) := by
        simp only [invMixRow, mixRow, gfMul_xor]
        ac_rfl
    _ = a0 := by
        rw [invMix_mix_diagonal, invMix_mix_offset_one, invMix_mix_offset_two, invMix_mix_offset_three]
        simp only [BitVec.xor_zero]

theorem invMixColumn_mixColumn (a0 a1 a2 a3 : Byte) :
    ∃ b0 b1 b2 b3, mixColumn a0 a1 a2 a3 = [b0, b1, b2, b3] ∧ invMixColumn b0 b1 b2 b3 = [a0, a1, a2, a3] :=
  ⟨_, _, _, _, mixColumn_eq_mixRows a0 a1 a2 a3, by simp only [invMixColumn_eq_invMixRows, invMixRow_mixRows]⟩

/-- An operation that undoes another on every column undoes it on a state. -/
theorem onColumns_onColumns {f g : Byte → Byte → Byte → Byte → Bytes}
    (hfg : ∀ a0 a1 a2 a3, ∃ b0 b1 b2 b3, g a0 a1 a2 a3 = [b0, b1, b2, b3] ∧ f b0 b1 b2 b3 = [a0, a1, a2, a3])
    {st : Bytes} (hst : st.length = 16) : onColumns f (onColumns g st) = st := by
  match st, hst with
  | [x0, x1, x2, x3, x4, x5, x6, x7, x8, x9, x10, x11, x12, x13, x14, x15], _ =>
    obtain ⟨a0, a1, a2, a3, hg0, hf0⟩ := hfg x0 x1 x2 x3
    obtain ⟨b0, b1, b2, b3, hg1, hf1⟩ := hfg x4 x5 x6 x7
    obtain ⟨c0, c1, c2, c3, hg2, hf2⟩ := hfg x8 x9 x10 x11
    obtain ⟨d0, d1, d2, d3, hg3, hf3⟩ := hfg x12 x13 x14 x15
    simp [onColumns, List.range_succ, hg0, hf0, hg1, hf1, hg2, hf2, hg3, hf3]

theorem invMixColumns_mixColumns {st : Bytes} (hst : st.length = 16) : invMixColumns (mixColumns st) = st :=
  onColumns_onColumns invMixColumn_mixColumn hst

end Sys2Proof.Machine
end

section
/-! SUPPORT. Decryption undoes encryption, layer by layer and round by round; and, there being finitely many strings of
16 bytes, encryption undoes decryption (42_block_cipher.md R184 to R186). -/

namespace Sys2Proof.Machine

/-! ### The other layers of a round -/

theorem xorBytes_xorBytes {a b : Bytes} (h : a.length ≤ b.length) : xorBytes (xorBytes a b) b = a := by
  refine List.ext_getElem (by simp [h]) fun i _ _ => ?_
  simp [xorBytes]

theorem addRoundKey_addRoundKey {k st : Bytes} {n : Nat} (hk : k.length = 16) (hn : n ≤ 10) (hst : st.length = 16) :
    addRoundKey (keyWords k) n (addRoundKey (keyWords k) n st) = st :=
  xorBytes_xorBytes (by rw [hst, length_roundKey hk hn])

theorem invSubBytes_subBytes (st : Bytes) : invSubBytes (subBytes st) = st := by
  simp [invSubBytes, subBytes, Function.comp_def, invSbox_sbox]

/-- R184: both shifts move bytes inside their row, by the row's number, in opposite directions. -/
theorem invShiftRows_shiftRows {st : Bytes} (hst : st.length = 16) : invShiftRows (shiftRows st) = st := by
  match st, hst with
  | [_, _, _, _, _, _, _, _, _, _, _, _, _, _, _, _], _ => rfl

/-! ### The rounds -/

/-- What a round of decryption begins with undoes what a round of encryption begins with. -/
theorem invSubBytes_invShiftRows_shiftRows_subBytes {st : Bytes} (hst : st.length = 16) :
    invSubBytes (invShiftRows (shiftRows (subBytes st))) = st := by
  rw [invShiftRows_shiftRows ((length_subBytes st).trans hst), invSubBytes_subBytes]

/-- R185, R186: seen from between ShiftRows and MixColumns, round `n` of decryption undoes round `n` of encryption. -/
theorem decRound_encRound {k st : Bytes} {n : Nat} (hk : k.length = 16) (hn : n ≤ 10) :
    decRound (keyWords k) (shiftRows (subBytes (encRound (keyWords k) st n))) n = shiftRows (subBytes st) := by
  rw [decRound, invSubBytes_invShiftRows_shiftRows_subBytes (length_encRound hk hn st), encRound,
    addRoundKey_addRoundKey hk hn (length_mixColumns _), invMixColumns_mixColumns (length_shiftRows _)]

/-- The rounds of decryption, in the reverse order, undo those of encryption. -/
theorem foldl_decRound_foldl_encRound {k : Bytes} (hk : k.length = 16) (rounds : List Nat)
    (hrounds : ∀ n ∈ rounds, n ≤ 10) (st : Bytes) :
    rounds.reverse.foldl (decRound (keyWords k)) (shiftRows (subBytes (rounds.foldl (encRound (keyWords k)) st)))
      = shiftRows (subBytes st) := by
  induction rounds generalizing st with
  | nil => rfl
  | cons n rounds ih =>
    obtain ⟨hn, hrest⟩ := List.forall_mem_cons.1 hrounds
    rw [List.reverse_cons, List.foldl_append, List.foldl_cons, List.foldl_nil, List.foldl_cons, ih hrest]
    exact decRound_encRound hk hn

/-! ### The cipher -/

/-- R186: the rounds of decryption are those of encryption in the reverse order. -/
theorem decBlock_eq_reverse (k y : Bytes) :
    decBlock k y = addRoundKey (keyWords k) 0 (invSubBytes (invShiftRows
      ([1, 2, 3, 4, 5, 6, 7, 8, 9].reverse.foldl (decRound (keyWords k)) (addRoundKey (keyWords k) 10 y)))) := rfl

theorem decBlock_encBlock {k x : Bytes} (hk : k.length = 16) (hx : x.length = 16) :
    decBlock k (encBlock k x) = x := by
  have hstart : (addRoundKey (keyWords k) 0 x).length = 16 := length_addRoundKey hk (Nat.zero_le _) hx
  rw [decBlock_eq_reverse, encBlock, addRoundKey_addRoundKey hk le_rfl (length_shiftRows _),
    foldl_decRound_foldl_encRound hk _ (by decide), invSubBytes_invShiftRows_shiftRows_subBytes hstart,
    addRoundKey_addRoundKey hk (Nat.zero_le _) hx]

/-- Encryption is injective on the finite set of 16-byte strings, so it reaches all of them. -/
theorem exists_encBlock_eq {k y : Bytes} (hk : k.length = 16) (hy : y.length = 16) :
    ∃ x : Bytes, x.length = 16 ∧ encBlock k x = y := by
  have hmaps : Set.MapsTo (encBlock k) {x | x.length = 16} {x | x.length = 16} := fun x _ => length_encBlock hk x
  have hleft : Set.LeftInvOn (decBlock k) (encBlock k) {x | x.length = 16} := fun _ hx => decBlock_encBlock hk hx
  exact (((List.finite_length_eq Byte 16).injOn_iff_bijOn_of_mapsTo hmaps).1 hleft.injOn).surjOn hy

theorem encBlock_decBlock {k y : Bytes} (hk : k.length = 16) (hy : y.length = 16) :
    encBlock k (decBlock k y) = y := by
  obtain ⟨x, hx, rfl⟩ := exists_encBlock_eq hk hy
  rw [decBlock_encBlock hk hx]

/-- Settles O53: each direction undoes the other. -/
theorem blockCipherIsABijection : Obligations.BlockCipherIsABijection := fun _ _ hk hx =>
  ⟨decBlock_encBlock hk hx, encBlock_decBlock hk hx⟩

end Sys2Proof.Machine
end

section
/-! SUPPORT. The commands that take two blocks of 16 bytes and store one: their checks in order and their output.
BLOCK_ENC and BLOCK_DEC are two of them (30_encoding.md R94 to R97; 42_block_cipher.md R187, R188). -/

namespace Sys2Proof.Machine

/-- R94: `i` reads two sources of 16 bytes each and its body is `f` of them, which gives 16 bytes. -/
structure TwoBlockCommand (i : Instr) (f : Bytes → Bytes → Bytes) : Prop where
  src0 : usesSrc0 i = true
  src1 : usesSrc1 i = true
  dst : usesDst i = true
  lengths : ∀ a b, lengthChecks i a b = if a.length ≠ 16 ∨ b.length ≠ 16 then some .inputLength else none
  room : ∀ n, maxOut i n = 16
  body : ∀ s a b, bodyOf i s a b = .ok (f a b)
  output : ∀ key b, key.length = 16 → (f key b).length = 16

theorem twoBlockCommand_blockEnc : TwoBlockCommand .blockEnc encBlock :=
  ⟨rfl, rfl, rfl, fun _ _ => rfl, fun _ => rfl, fun _ _ _ => rfl, fun _ b hk => length_encBlock hk b⟩

theorem twoBlockCommand_blockDec : TwoBlockCommand .blockDec decBlock :=
  ⟨rfl, rfl, rfl, fun _ _ => rfl, fun _ => rfl, fun _ _ _ => rfl, fun _ b hk => length_decBlock hk b⟩

section
variable {i : Instr} {f : Bytes → Bytes → Bytes} {s : State}

theorem TwoBlockCommand.ne_zeroize (h : TwoBlockCommand i f) : i ≠ .zeroize := by
  rintro rfl
  exact nomatch h.src0

theorem TwoBlockCommand.usedSource0_eq (h : TwoBlockCommand i f) : usedSource0 i s = source0 s := if_pos h.src0

theorem TwoBlockCommand.usedSource1_eq (h : TwoBlockCommand i f) : usedSource1 i s = source1 s := if_pos h.src1

/-- R97 step 3, on the lengths the snapshot gives. -/
theorem TwoBlockCommand.lengthChecks_eq (h : TwoBlockCommand i f) :
    lengthChecks i (usedSource0 i s) (usedSource1 i s)
      = if s.lt.ops.src0Len.toNat ≠ 16 ∨ s.lt.ops.src1Len.toNat ≠ 16 then some .inputLength else none := by
  rw [h.lengths, h.usedSource0_eq, h.usedSource1_eq, length_source0, length_source1]

theorem TwoBlockCommand.lengthChecks_pass (h : TwoBlockCommand i f) (hlen0 : s.lt.ops.src0Len.toNat = 16)
    (hlen1 : s.lt.ops.src1Len.toNat = 16) : lengthChecks i (usedSource0 i s) (usedSource1 i s) = none :=
  h.lengthChecks_eq.trans (if_neg (by simp [hlen0, hlen1]))

theorem TwoBlockCommand.exec_source_outside (h : TwoBlockCommand i f)
    (hout : ¬ (Source0Inside s ∧ Source1Inside s)) :
    exec i s = .next (afterFail s .range) :=
  exec_of_fail h.ne_zeroize (operands_source_outside h.src0 h.src1 hout)

theorem TwoBlockCommand.exec_wrong_length (h : TwoBlockCommand i f) (hsrc0 : Source0Inside s) (hsrc1 : Source1Inside s)
    (hlen : s.lt.ops.src0Len.toNat ≠ 16 ∨ s.lt.ops.src1Len.toNat ≠ 16) :
    exec i s = .next (afterFail s .inputLength) :=
  exec_of_fail h.ne_zeroize
    (operands_wrong_length (fun _ => hsrc0) (fun _ => hsrc1) (h.lengthChecks_eq.trans (if_pos hlen)))

theorem TwoBlockCommand.exec_no_room (h : TwoBlockCommand i f) (hsrc0 : Source0Inside s) (hsrc1 : Source1Inside s)
    (hlen0 : s.lt.ops.src0Len.toNat = 16) (hlen1 : s.lt.ops.src1Len.toNat = 16) (hroom : ¬ DestinationFits s 16) :
    exec i s = .next (afterFail s .range) := by
  refine exec_of_fail h.ne_zeroize
    (operands_no_room h.dst (fun _ => hsrc0) (fun _ => hsrc1) (h.lengthChecks_pass hlen0 hlen1) ?_)
  rwa [h.room]

theorem TwoBlockCommand.exec_output (h : TwoBlockCommand i f) (hsrc0 : Source0Inside s) (hsrc1 : Source1Inside s)
    (hlen0 : s.lt.ops.src0Len.toNat = 16) (hlen1 : s.lt.ops.src1Len.toNat = 16) (hroom : DestinationFits s 16) :
    exec i s = .next (afterCommit s (f (source0 s) (source1 s))) := by
  rw [← h.usedSource0_eq (s := s), ← h.usedSource1_eq (s := s)]
  refine exec_of_output h.ne_zeroize
    (operands_pass (fun _ => hsrc0) (fun _ => hsrc1) (h.lengthChecks_pass hlen0 hlen1) ?_) (h.body _ _ _)
  rwa [h.room]

theorem TwoBlockCommand.outLen_afterCommit (h : TwoBlockCommand i f) (hlen0 : s.lt.ops.src0Len.toNat = 16)
    (b : Bytes) : (afterCommit s (f (source0 s) b)).outLen = 16#32 := by
  rw [afterCommit_outLen, h.output _ _ ((length_source0 s).trans hlen0)]

/-- R97: the output of a command on two blocks, and its failures in the order of the checks. -/
theorem TwoBlockCommand.exec_by_checks (h : TwoBlockCommand i f) (s : State) :
    (Source0Inside s → Source1Inside s → s.lt.ops.src0Len.toNat = 16 → s.lt.ops.src1Len.toNat = 16 →
        DestinationFits s 16 →
      exec i s = .next (afterCommit s (f (source0 s) (source1 s)))
        ∧ (afterCommit s (f (source0 s) (source1 s))).outLen = 16#32)
    ∧ (¬ (Source0Inside s ∧ Source1Inside s) → exec i s = .next (afterFail s .range))
    ∧ (Source0Inside s → Source1Inside s → (s.lt.ops.src0Len.toNat ≠ 16 ∨ s.lt.ops.src1Len.toNat ≠ 16) →
      exec i s = .next (afterFail s .inputLength))
    ∧ (Source0Inside s → Source1Inside s → s.lt.ops.src0Len.toNat = 16 → s.lt.ops.src1Len.toNat = 16 →
        ¬ DestinationFits s 16 → exec i s = .next (afterFail s .range)) :=
  ⟨fun hsrc0 hsrc1 hlen0 hlen1 hroom =>
      ⟨h.exec_output hsrc0 hsrc1 hlen0 hlen1 hroom, h.outLen_afterCommit hlen0 (source1 s)⟩,
    h.exec_source_outside, h.exec_wrong_length, h.exec_no_room⟩

end

/-- Settles O34: BLOCK_ENC is the command on two blocks whose output is the encryption. -/
theorem blockEncStoresTheCipherBlock : Obligations.BlockEncStoresTheCipherBlock :=
  ⟨decode_encode .blockEnc, twoBlockCommand_blockEnc.exec_by_checks⟩

/-- Settles O35: BLOCK_DEC is the command on two blocks whose output is the decryption. -/
theorem blockDecStoresThePlainBlock : Obligations.BlockDecStoresThePlainBlock :=
  ⟨decode_encode .blockDec, twoBlockCommand_blockDec.exec_by_checks⟩

end Sys2Proof.Machine
end

section
/-! SUPPORT. HMAC as a command: its tag written out over the SHA-256 core, its three checks, both sources and room, and
its output (43_hmac.md R220, R221). -/

namespace Sys2Proof.Machine

/-- R220, line by line: from `K1`, the key hashed where it is longer than a block, to the outer hash. -/
theorem hmacTag_eq_sha256 {k m k1 k0 : Bytes} (hk1 : k1 = if k.length > 64 then sha256 k else k)
    (hk0 : k0 = k1 ++ List.replicate (64 - k1.length) 0x00#8) :
    hmacTag k m = sha256 (k0.map (· ^^^ 0x5c#8) ++ sha256 (k0.map (· ^^^ 0x36#8) ++ m)) := by
  have hkey : hmacKey k = k0 := by rw [hk0, hk1, hmacKey]
  simp only [hmacTag, xorByte, hkey]

/-- R94, R97: HMAC has no length check, so its three range checks are all it has to pass. -/
theorem operands_hmac_pass {s : State} (hsrc0 : Source0Inside s) (hsrc1 : Source1Inside s)
    (hroom : DestinationFits s 32) : operands .hmac s = .ok (source0 s, source1 s) :=
  operands_pass (i := .hmac) (fun _ => hsrc0) (fun _ => hsrc1) rfl hroom

/-- R221: each of these checks answers `RANGE`. -/
theorem operands_hmac_fail {s : State} (h : ¬ (Source0Inside s ∧ Source1Inside s ∧ DestinationFits s 32)) :
    operands .hmac s = .error (.fail .range) := by
  by_cases hsrcs : Source0Inside s ∧ Source1Inside s
  · obtain ⟨hsrc0, hsrc1⟩ := hsrcs
    have hroom : ¬ DestinationFits s 32 := fun hroom => h ⟨hsrc0, hsrc1, hroom⟩
    exact operands_no_room (i := .hmac) rfl (fun _ => hsrc0) (fun _ => hsrc1) rfl hroom
  · exact operands_source_outside rfl rfl hsrcs

theorem outLen_afterCommit_hmacTag (s : State) (k m : Bytes) : (afterCommit s (hmacTag k m)).outLen = 32#32 := by
  rw [afterCommit_outLen, length_hmacTag]

/-- Settles O36: the tag of R220 is HMAC's body where the three checks pass, and a failing check decides otherwise. -/
theorem hmacStoresTheTag : Obligations.HmacStoresTheTag := by
  refine ⟨decode_encode .hmac, fun s k1 k0 tag hk1 hk0 htag => ⟨fun hsrc0 hsrc1 hroom => ?_, fun hfails => ?_⟩⟩
  · rw [htag, ← hmacTag_eq_sha256 hk1 hk0]
    exact ⟨exec_of_output (nomatch ·) (operands_hmac_pass hsrc0 hsrc1 hroom) rfl,
      outLen_afterCommit_hmacTag s (source0 s) (source1 s)⟩
  · exact exec_of_fail (nomatch ·) (operands_hmac_fail hfails)

end Sys2Proof.Machine
end

section
/-! SUPPORT. The two commands that ask the entropy source, CREATE_KEY and ENCRYPT, from the request to the answer; and
the two commands of key derivation (44_key_derivation.md R240 to R243). -/

namespace Sys2Proof.Machine

/-! ### The commands that ask for entropy -/

theorem getEntropy16_of_ok {s : State} {d : BitVec 128} (hp : s.phase = .waitEnt) (hent : s.ent = some (.ok d)) :
    getEntropy16 s = .ok (entropyBytes d) := by
  rw [getEntropy16, hp, hent]

theorem getEntropy16_of_unavailable {s : State} (hp : s.phase = .waitEnt) (hent : s.ent = some .unavailable) :
    getEntropy16 s = .error (.fail .entropyUnavailable) := by
  rw [getEntropy16, hp, hent]

theorem getEntropy16_of_exec {s : State} (hp : s.phase = .exec) : getEntropy16 s = .error .waitEntropy := by
  rw [getEntropy16, hp]

/-- R240: `i` asks for 16 bytes of entropy, and its output is `f` of them and of its two sources. -/
structure EntropyCommand (i : Instr) (f : Bytes → Bytes → Bytes → Bytes) : Prop where
  ne_zeroize : i ≠ .zeroize
  body : ∀ s a b, bodyOf i s a b = (getEntropy16 s).map fun e => f e a b

theorem entropyCommand_createKey : EntropyCommand .createKey (fun e _ _ => e) :=
  ⟨nofun, fun s _ _ => (id_map (getEntropy16 s)).symm⟩

theorem entropyCommand_encrypt : EntropyCommand .encrypt (fun e a b => sealed a e b) :=
  ⟨nofun, fun _ _ _ => rfl⟩

section
variable {i : Instr} {f : Bytes → Bytes → Bytes → Bytes} {s : State} {a b : Bytes}

/-- R240 item 5, R324: an `Ok` answer is committed. -/
theorem EntropyCommand.exec_ok (h : EntropyCommand i f) (ho : operands i s = .ok (a, b)) (hp : s.phase = .waitEnt)
    {d : BitVec 128} (hent : s.ent = some (.ok d)) :
    exec i s = .next (afterCommit s (f (entropyBytes d) a b)) := by
  have hbody : bodyOf i s a b = .ok (f (entropyBytes d) a b) := by
    rw [h.body, getEntropy16_of_ok hp hent]
    rfl
  exact exec_of_output h.ne_zeroize ho hbody

theorem EntropyCommand.exec_unavailable (h : EntropyCommand i f) (ho : operands i s = .ok (a, b))
    (hp : s.phase = .waitEnt) (hent : s.ent = some .unavailable) :
    exec i s = .next (afterFail s .entropyUnavailable) := by
  have hbody : bodyOf i s a b = .error (.fail .entropyUnavailable) := by
    rw [h.body, getEntropy16_of_unavailable hp hent]
    rfl
  exact exec_of_body_fail h.ne_zeroize ho hbody

/-- R240: a command that has not asked yet makes its request. -/
theorem EntropyCommand.exec_request (h : EntropyCommand i f) (ho : operands i s = .ok (a, b)) (hp : s.phase = .exec) :
    exec i s = .next (requestEntropy s) := by
  have hbody : bodyOf i s a b = .error .waitEntropy := by
    rw [h.body, getEntropy16_of_exec hp]
    rfl
  exact exec_of_wait h.ne_zeroize ho hbody

end

theorem entw_requestEntropy (s : State) : entw (requestEntropy s) = true := rfl

/-! ### CREATE_KEY -/

/-- R94, R97: CREATE_KEY has no source, so the room for its key is all that is checked. -/
theorem operands_createKey_pass {s : State} (hroom : DestinationFits s 16) : operands .createKey s = .ok ([], []) :=
  operands_pass (i := .createKey) nofun nofun rfl hroom

theorem operands_createKey_fail {s : State} (hroom : ¬ DestinationFits s 16) :
    operands .createKey s = .error (.fail .range) :=
  operands_no_room (i := .createKey) rfl nofun nofun rfl hroom

/-- R240 item 5: `E[i] = ent_data[8i+7:8i]`. -/
theorem entropyBytes_getD (d : BitVec 128) {i : Nat} (hi : i < 16) :
    (entropyBytes d).getD i 0 = d.extractLsb' (8 * i) 8 := by
  rw [List.getD_eq_getElem _ _ (by rwa [length_entropyBytes])]
  simp only [entropyBytes, List.getElem_map, List.getElem_range]

theorem outLen_afterCommit_entropyBytes (s : State) (d : BitVec 128) :
    (afterCommit s (entropyBytes d)).outLen = 16#32 := by
  rw [afterCommit_outLen, length_entropyBytes]

/-- Settles O25: the room decides first; with room, CREATE_KEY is the entropy command that stores the answer itself. -/
theorem createKeyStoresTheAnswer : Obligations.CreateKeyStoresTheAnswer := by
  refine ⟨decode_encode .createKey, fun s => ⟨fun hroom => ?_, fun hroom => ?_⟩⟩
  · exact exec_of_fail nofun (operands_createKey_fail hroom)
  · have ho := operands_createKey_pass hroom
    refine ⟨fun d hp hent => ⟨?_, ?_, fun i hi => ?_⟩, fun hp hent => ?_, fun hp => ⟨?_, ?_⟩⟩
    · exact entropyCommand_createKey.exec_ok ho hp hent
    · exact outLen_afterCommit_entropyBytes s d
    · exact entropyBytes_getD d hi
    · exact entropyCommand_createKey.exec_unavailable ho hp hent
    · exact entropyCommand_createKey.exec_request ho hp
    · exact entw_requestEntropy s

/-! ### DERIVE_PASSPHRASE_KEY -/

theorem lengthChecks_derivePassphraseKey_salt {salt : Bytes} (hsalt : salt.length ≠ 16) (pw : Bytes) :
    lengthChecks .derivePassphraseKey pw salt = some .invalidSalt :=
  if_pos hsalt

/-- R242: the key is the first 16 bytes of the hash of the passphrase's digest. -/
theorem passphraseKey_eq_take (pw salt : Bytes) : passphraseKey pw salt = (bcryptHash 8 salt (sha256 pw)).take 16 := rfl

theorem outLen_afterCommit_passphraseKey (s : State) (pw salt : Bytes) :
    (afterCommit s (passphraseKey pw salt)).outLen = 16#32 := by
  rw [afterCommit_outLen, length_passphraseKey]

/-- Settles O26: the output, then the checks in R97's order: both sources, the salt's length, the room. -/
theorem derivePassphraseKeyStoresTheKey : Obligations.DerivePassphraseKeyStoresTheKey := by
  refine ⟨decode_encode .derivePassphraseKey, fun s => ⟨fun h0 h1 hsalt hroom => ?_, fun hout => ?_,
    fun h0 h1 hsalt => ?_, fun h0 h1 hsalt hroom => ?_⟩⟩
  · rw [← passphraseKey_eq_take]
    exact ⟨exec_derivePassphraseKey_output h0 h1 hsalt hroom, outLen_afterCommit_passphraseKey s _ _⟩
  · exact exec_of_fail nofun (operands_source_outside rfl rfl hout)
  · rw [← length_source1] at hsalt
    exact exec_of_fail nofun
      (operands_wrong_length (fun _ => h0) (fun _ => h1) (lengthChecks_derivePassphraseKey_salt hsalt _))
  · rw [← length_source1] at hsalt
    exact exec_of_fail nofun (operands_no_room (i := .derivePassphraseKey) rfl (fun _ => h0) (fun _ => h1)
      (lengthChecks_derivePassphraseKey_pass hsalt _) hroom)

end Sys2Proof.Machine
end

section
/-! SUPPORT. The step in which the entropy source answers (10_state.md R34; 44_key_derivation.md R240, R241;
46_authenticated_encryption.md R285; 70_reset_and_hazards.md R360). -/

namespace Sys2Proof.Machine

/-! ### The container with the subkeys written out -/

/-- R264: of a 32-byte SubKeys string the MAC subkey is all but the first 16 bytes. -/
theorem macSubkey_eq_drop {sk : Bytes} (hsk : sk.length = 32) : macSubkey sk = sk.drop 16 :=
  List.take_of_length_le (by rw [List.length_drop, hsk])

/-- R285: the container with its cipher subkey and its MAC subkey cut from the SubKeys. -/
theorem sealed_eq_container {sk iv p c g : Bytes} (hsk : sk.length = 32) (hc : c = cbcEnc (sk.take 16) iv (pad p))
    (hg : g = hmacTag (sk.drop 16) (iv ++ c)) : sealed sk iv p = 0x01#8 :: (iv ++ c ++ g) := by
  rw [hg, hc, ← macSubkey_eq_drop hsk]
  rfl

/-! ### The command that waits -/

/-- R34: while it waits the machine has passed the checks of the command in its snapshot. -/
theorem MachineInv.waiting_operands {s : State} (hs : MachineInv s) (hp : s.phase = .waitEnt) {i : Instr}
    (hdec : decode s.lt.cmd = .ok i) : ∃ a b, operands i s = .ok (a, b) := by
  obtain ⟨j, ⟨a, b⟩, hcmd, -, ho⟩ := hs.waiting hp
  rw [hs.snapshot (by rw [hp]; nofun), hcmd] at hdec
  cases hdec
  exact ⟨a, b, ho⟩

/-- R240: only a command that asks for entropy waits. -/
theorem MachineInv.waiting_entropyCommand {s : State} (hs : MachineInv s) (hp : s.phase = .waitEnt) :
    ∃ i f, decode s.lt.cmd = .ok i ∧ EntropyCommand i f := by
  obtain ⟨i, srcs, hcmd, hi, -⟩ := hs.waiting hp
  rw [hs.snapshot (by rw [hp]; nofun)]
  rcases hi with rfl | rfl
  · exact ⟨_, _, hcmd, entropyCommand_createKey⟩
  · exact ⟨_, _, hcmd, entropyCommand_encrypt⟩

/-! ### The step of an answer -/

theorem step_entropy {s : State} {e : EntropyAnswer} {rest : List Event} (henv : s.env = .entropy e :: rest) :
    step s = entropyArrives { s with env := rest } e := by
  rw [step, henv]
  rfl

/-- R34: the waiting command runs on with the answer on its inputs. -/
theorem step_answer_waiting {s : State} {e : EntropyAnswer} {rest : List Event} (hp : s.phase = .waitEnt)
    (henv : s.env = .entropy e :: rest) {i : Instr} (hdec : decode s.lt.cmd = .ok i) :
    step s = exec i { s with env := rest, ent := some e } := by
  rw [step_entropy henv, entropyArrives_waiting (s := { s with env := rest }) hp, runCommand, hdec]

/-- R360 item 3: an answer that no command waits for is only taken from the queue. -/
theorem step_answer_unasked {s : State} {e : EntropyAnswer} {rest : List Event} (hp : s.phase ≠ .waitEnt)
    (henv : s.env = .entropy e :: rest) : step s = .next { s with env := rest } := by
  rw [step_entropy henv]
  exact entropyArrives_unasked (s := { s with env := rest }) hp e

section
variable {s : State} {rest : List Event} {i : Instr} {f : Bytes → Bytes → Bytes → Bytes}

/-- R240 item 5: the answer that arrives is the answer that the command uses. -/
theorem EntropyCommand.step_ok (h : EntropyCommand i f) (hp : s.phase = .waitEnt) {d : BitVec 128}
    (henv : s.env = .entropy (.ok d) :: rest) (hdec : decode s.lt.cmd = .ok i) {a b : Bytes}
    (ho : operands i s = .ok (a, b)) :
    step s = .next (afterCommit { s with env := rest } (f (entropyBytes d) a b)) := by
  have ho' : operands i { s with env := rest, ent := some (.ok d) } = .ok (a, b) := (operands_congr rfl rfl).trans ho
  rw [step_answer_waiting hp henv hdec, h.exec_ok ho' hp rfl]
  rfl

theorem EntropyCommand.step_unavailable (h : EntropyCommand i f) (hp : s.phase = .waitEnt)
    (henv : s.env = .entropy .unavailable :: rest) (hdec : decode s.lt.cmd = .ok i) {a b : Bytes}
    (ho : operands i s = .ok (a, b)) :
    step s = .next (afterFail { s with env := rest } .entropyUnavailable) := by
  have ho' : operands i { s with env := rest, ent := some .unavailable } = .ok (a, b) :=
    (operands_congr rfl rfl).trans ho
  rw [step_answer_waiting hp henv hdec, h.exec_unavailable ho' hp rfl]
  rfl

/-- R241, R285: whichever command waits, an `Ok` answer leads to a commit. -/
theorem step_ok_commits (hs : MachineInv s) (hp : s.phase = .waitEnt) {d : BitVec 128}
    (henv : s.env = .entropy (.ok d) :: rest) : ∃ out, step s = .next (afterCommit { s with env := rest } out) := by
  obtain ⟨i, f, hdec, hi⟩ := hs.waiting_entropyCommand hp
  obtain ⟨a, b, ho⟩ := hs.waiting_operands hp hdec
  exact ⟨_, hi.step_ok hp henv hdec ho⟩

/-- R241, R285: whichever command waits, `Unavailable` fails it. -/
theorem step_unavailable_fails (hs : MachineInv s) (hp : s.phase = .waitEnt)
    (henv : s.env = .entropy .unavailable :: rest) :
    step s = .next (afterFail { s with env := rest } .entropyUnavailable) := by
  obtain ⟨i, f, hdec, hi⟩ := hs.waiting_entropyCommand hp
  obtain ⟨a, b, ho⟩ := hs.waiting_operands hp hdec
  exact hi.step_unavailable hp henv hdec ho

theorem step_ok_createKey (hs : MachineInv s) (hp : s.phase = .waitEnt) {d : BitVec 128}
    (henv : s.env = .entropy (.ok d) :: rest) (hdec : decode s.lt.cmd = .ok .createKey) :
    step s = .next (afterCommit { s with env := rest } (entropyBytes d)) := by
  obtain ⟨a, b, ho⟩ := hs.waiting_operands hp hdec
  exact entropyCommand_createKey.step_ok hp henv hdec ho

/-- R285: the answer is the container's IV, and the sources are those of the snapshot. -/
theorem step_ok_encrypt (hs : MachineInv s) (hp : s.phase = .waitEnt) {d : BitVec 128}
    (henv : s.env = .entropy (.ok d) :: rest) (hdec : decode s.lt.cmd = .ok .encrypt) :
    (source0 s).length = 32
      ∧ step s = .next (afterCommit { s with env := rest } (sealed (source0 s) (entropyBytes d) (source1 s))) := by
  obtain ⟨a, b, ho⟩ := hs.waiting_operands hp hdec
  obtain ⟨-, -, hkeys, -⟩ := encrypt_checks ho
  obtain ⟨rfl, rfl, -⟩ := operands_ok ho
  exact ⟨(length_source0 s).trans hkeys, entropyCommand_encrypt.step_ok hp henv hdec ho⟩

end

/-- R34, R324: the machine that an answer leaves, with the queue's rest and the code that the answer decides. -/
theorem step_answer_completes {s t : State} {e : EntropyAnswer} {rest : List Event} (hs : MachineInv s)
    (hp : s.phase = .waitEnt) (henv : s.env = .entropy e :: rest) (h : step s = .next t) :
    t.phase = .idle ∧ t.done = true ∧ t.env = rest
      ∧ (e = .unavailable → t.err = .entropyUnavailable ∧ t.dbuf = s.dbuf ∧ t.outLen = 0)
      ∧ ((∃ d, e = .ok d) → t.err = .ok) := by
  cases e with
  | ok d =>
    obtain ⟨out, hcommit⟩ := step_ok_commits hs hp henv
    rw [hcommit] at h
    cases h
    exact ⟨rfl, rfl, rfl, nofun, fun _ => rfl⟩
  | unavailable =>
    rw [step_unavailable_fails hs hp henv] at h
    cases h
    exact ⟨rfl, rfl, rfl, fun _ => ⟨rfl, rfl, rfl⟩, nofun⟩

/-- Settles O49: the answer runs the waiting command to its completion, for each command and each kind of answer, and
does nothing where none waits. -/
theorem entropyAnswerCompletes : Obligations.EntropyAnswerCompletes := by
  refine ⟨fun s t e rest => step_answer_completes, fun s d rest hs hp henv => ⟨?_, fun hdec c g hc hg => ?_⟩,
    fun s rest => step_unavailable_fails, fun s e rest => step_answer_unasked⟩
  · exact step_ok_createKey hs hp henv
  · obtain ⟨hkeys, hstep⟩ := step_ok_encrypt hs hp henv hdec
    rw [hstep, sealed_eq_container hkeys hc hg]

end Sys2Proof.Machine
end

section
/-! SUPPORT. WRAP_KEY and UNWRAP_KEY as commands on two blocks, and UNWRAP_KEY of what WRAP_KEY stored; DERIVE_SUBKEYS
(45_wrap_subkeys.md R260 to R263). -/

namespace Sys2Proof.Machine

/-! ### DERIVE_SUBKEYS -/

/-- R97 step 3, on the length the snapshot gives. -/
theorem lengthChecks_deriveSubkeys (s : State) :
    lengthChecks .deriveSubkeys (usedSource0 .deriveSubkeys s) (usedSource1 .deriveSubkeys s)
      = if s.lt.ops.src0Len.toNat ≠ 16 then some .inputLength else none := by
  rw [← length_source0]
  rfl

theorem lengthChecks_deriveSubkeys_pass {s : State} (hlen : s.lt.ops.src0Len.toNat = 16) :
    lengthChecks .deriveSubkeys (usedSource0 .deriveSubkeys s) (usedSource1 .deriveSubkeys s) = none :=
  (lengthChecks_deriveSubkeys s).trans (if_neg (not_not.2 hlen))

/-- Settles O27: the digest where the three checks pass, then the checks in R97's order: source, length, room. -/
theorem deriveSubkeysStoresTheHash : Obligations.DeriveSubkeysStoresTheHash := by
  refine ⟨decode_encode .deriveSubkeys, fun s => ⟨fun hsrc hlen hroom => ⟨?_, outLen_afterCommit_sha256 s (source0 s)⟩,
    fun hout => ?_, fun hsrc hlen => ?_, fun hsrc hlen hroom => ?_⟩⟩
  · exact exec_of_output nofun (operands_pass (i := .deriveSubkeys) (fun _ => hsrc) nofun
      (lengthChecks_deriveSubkeys_pass hlen) hroom) rfl
  · exact exec_of_fail nofun (operands_src0_outside rfl hout)
  · exact exec_of_fail nofun
      (operands_wrong_length (fun _ => hsrc) nofun ((lengthChecks_deriveSubkeys s).trans (if_pos hlen)))
  · exact exec_of_fail nofun (operands_no_room (i := .deriveSubkeys) rfl (fun _ => hsrc) nofun
      (lengthChecks_deriveSubkeys_pass hlen) hroom)

/-! ### WRAP_KEY and UNWRAP_KEY -/

theorem twoBlockCommand_wrapKey : TwoBlockCommand .wrapKey wrapped :=
  ⟨rfl, rfl, rfl, fun _ _ => rfl, fun _ => rfl, fun _ _ _ => rfl, fun _ c hk => length_wrapped hk c⟩

theorem twoBlockCommand_unwrapKey : TwoBlockCommand .unwrapKey unwrapped :=
  ⟨rfl, rfl, rfl, fun _ _ => rfl, fun _ => rfl, fun _ _ _ => rfl, fun _ w hk => length_unwrapped hk w⟩

/-- Settles O28: WRAP_KEY is the command on two blocks whose output is the WrappedKey of R260. -/
theorem wrapKeyStoresTheWrappedKey : Obligations.WrapKeyStoresTheWrappedKey :=
  ⟨decode_encode .wrapKey, twoBlockCommand_wrapKey.exec_by_checks⟩

/-- Settles O29: UNWRAP_KEY is the command on two blocks whose output is the child of R261. -/
theorem unwrapKeyStoresTheChild : Obligations.UnwrapKeyStoresTheChild :=
  ⟨decode_encode .unwrapKey, twoBlockCommand_unwrapKey.exec_by_checks⟩

/-! ### Unwrapping what was wrapped -/

theorem xorByte_xorByte (b : Bytes) (v : Byte) : xorByte (xorByte b v) v = b := by
  simp [xorByte, Function.comp_def]

/-- R262: the cipher and the xor are each undone, in the reverse order. -/
theorem unwrapped_wrapped {parent child : Bytes} (hp : parent.length = 16) (hc : child.length = 16) :
    unwrapped parent (wrapped parent child) = child := by
  have hx : (xorByte child Config.wrapXor).length = 16 := (length_xorByte _ _).trans hc
  rw [unwrapped, wrapped, decBlock_encBlock hp hx, xorByte_xorByte]

theorem wrapped_injective {parent c c' : Bytes} (hp : parent.length = 16) (hc : c.length = 16) (hc' : c'.length = 16)
    (h : wrapped parent c = wrapped parent c') : c = c' := by
  rw [← unwrapped_wrapped hp hc, h, unwrapped_wrapped hp hc']

/-- R97: what a command on two blocks checks before its body runs. -/
structure TwoBlockChecks (s : State) : Prop where
  src0 : Source0Inside s
  src1 : Source1Inside s
  len0 : s.lt.ops.src0Len.toNat = 16
  len1 : s.lt.ops.src1Len.toNat = 16
  room : DestinationFits s 16

/-- R324: code `OK` means that every check has passed and the output is committed. -/
theorem TwoBlockCommand.committed_of_err_ok {i : Instr} {f : Bytes → Bytes → Bytes} {s t : State}
    (h : TwoBlockCommand i f) (hexec : exec i s = .next t) (hok : t.err = .ok) :
    TwoBlockChecks s ∧ t = afterCommit s (f (source0 s) (source1 s)) := by
  by_cases hsrcs : Source0Inside s ∧ Source1Inside s
  · obtain ⟨hsrc0, hsrc1⟩ := hsrcs
    by_cases hlens : s.lt.ops.src0Len.toNat = 16 ∧ s.lt.ops.src1Len.toNat = 16
    · obtain ⟨hlen0, hlen1⟩ := hlens
      by_cases hroom : DestinationFits s 16
      · rw [h.exec_output hsrc0 hsrc1 hlen0 hlen1 hroom] at hexec
        cases hexec
        exact ⟨⟨hsrc0, hsrc1, hlen0, hlen1, hroom⟩, rfl⟩
      · rw [h.exec_no_room hsrc0 hsrc1 hlen0 hlen1 hroom] at hexec
        cases hexec
        exact nomatch hok
    · rw [h.exec_wrong_length hsrc0 hsrc1 (not_and_or.1 hlens)] at hexec
      cases hexec
      exact nomatch hok
  · rw [h.exec_source_outside hsrcs] at hexec
    cases hexec
    exact nomatch hok

/-- A second source laid over the output that `s` committed: `u` reads that output from it. -/
theorem source1_of_committed {s u : State} {out : Bytes} (hwf : Memory.wf s.dbuf)
    (hin : s.lt.ops.dstAddr.toNat + out.length ≤ 4096) (hdbuf : u.dbuf = (afterCommit s out).dbuf)
    (haddr : u.lt.ops.src1Addr = s.lt.ops.dstAddr) (hlen : u.lt.ops.src1Len = (afterCommit s out).outLen) :
    Source1Inside u ∧ source1 u = out := by
  rw [Source1Inside, source1, hdbuf, haddr, hlen, toNat_outLen_afterCommit hin]
  exact ⟨hin, Memory.readBytes_writeBytes hwf hin⟩

/-- R262: UNWRAP_KEY passes its checks on the WrappedKey in `DBUF`, and its body gives the child back. -/
theorem exec_unwrapKey_of_wrapKey {s t u : State} (hwf : Memory.wf s.dbuf) (hexec : exec .wrapKey s = .next t)
    (hok : t.err = .ok) (hdbuf : u.dbuf = t.dbuf) (hparent : source0 u = source0 s) (hu0 : Source0Inside u)
    (haddr : u.lt.ops.src1Addr = s.lt.ops.dstAddr) (hlen : u.lt.ops.src1Len = t.outLen)
    (hroom : DestinationFits u 16) : exec .unwrapKey u = .next (afterCommit u (source1 s)) := by
  obtain ⟨hs, rfl⟩ := twoBlockCommand_wrapKey.committed_of_err_ok hexec hok
  have hparentLen : (source0 s).length = 16 := (length_source0 s).trans hs.len0
  have hchildLen : (source1 s).length = 16 := (length_source1 s).trans hs.len1
  have hwrappedLen : (wrapped (source0 s) (source1 s)).length = 16 := length_wrapped hparentLen _
  have hin : s.lt.ops.dstAddr.toNat + (wrapped (source0 s) (source1 s)).length ≤ 4096 := by
    rw [hwrappedLen]
    exact hs.room.2
  obtain ⟨hu1, hwrapped⟩ := source1_of_committed hwf hin hdbuf haddr hlen
  have hulen0 : u.lt.ops.src0Len.toNat = 16 := by rw [← length_source0, hparent, hparentLen]
  have hulen1 : u.lt.ops.src1Len.toNat = 16 := by rw [← length_source1, hwrapped, hwrappedLen]
  rw [twoBlockCommand_unwrapKey.exec_output hu0 hu1 hulen0 hulen1 hroom, hparent, hwrapped,
    unwrapped_wrapped hparentLen hchildLen]

/-- Settles O55: the commands as R262 runs them, and the injectivity of wrapping, which has an inverse. -/
theorem unwrapUndoesWrap : Obligations.UnwrapUndoesWrap :=
  ⟨fun _ _ _ => exec_unwrapKey_of_wrapKey, fun _ _ _ => wrapped_injective⟩

end Sys2Proof.Machine
end

section
/-! SUPPORT. CBC mode and the padding: decryption undoes encryption on whole blocks, and the strict removal of padding
accepts exactly the padded strings (46_authenticated_encryption.md R281 to R284). -/

namespace Sys2Proof.Machine

/-! ### Slices -/

theorem slice_zero (b : Bytes) (j : Nat) : slice b 0 j = b.take j := rfl

theorem slice_to_length (b : Bytes) (i : Nat) : slice b i b.length = b.drop i :=
  List.take_of_length_le (List.length_drop ▸ le_rfl)

theorem slice_append_append {x y z : Bytes} {i j : Nat} (hi : i = x.length) (hj : j = x.length + y.length) :
    slice (x ++ y ++ z) i j = y := by
  rw [slice, List.append_assoc, List.drop_left' hi.symm, List.take_left' (by omega)]

/-! ### Padding -/

/-- R284: what the removal of padding accepts, of any length: `n` bytes of value `n` after the answer, `n` from 1 to
16. -/
theorem unpad_eq_some_iff {x p : Bytes} :
    unpad x = some p ↔ ∃ n, 1 ≤ n ∧ n ≤ 16 ∧ x = p ++ List.replicate n (BitVec.ofNat 8 n) := by
  constructor
  · intro h
    simp only [unpad] at h
    split_ifs at h with _ hrange htail
    obtain rfl := Option.some.inj h
    rw [not_not, slice_to_length] at htail
    refine ⟨(x.getD (x.length - 1) 0).toNat, by omega, by omega, ?_⟩
    rw [BitVec.ofNat_toNat, BitVec.setWidth_eq, ← htail, slice_zero, List.take_append_drop]
  · rintro ⟨n, hmin, hmax, rfl⟩
    have hlast : (p ++ List.replicate n (BitVec.ofNat 8 n)).getD
        ((p ++ List.replicate n (BitVec.ofNat 8 n)).length - 1) 0 = BitVec.ofNat 8 n := by
      rw [List.getD_append_right _ _ _ _ (by simp; omega)]
      exact List.getD_replicate _ (by simp; omega)
    have hcount : (BitVec.ofNat 8 n).toNat = n := Nat.mod_eq_of_lt (by omega)
    have hlen : (p ++ List.replicate n (BitVec.ofNat 8 n)).length - n = p.length := by simp
    unfold unpad
    simp only [hlast, hcount]
    rw [if_neg (by simp; omega), if_neg (by omega), slice_to_length, hlen, slice_zero, List.drop_left, List.take_left,
      if_neg (not_not.2 rfl)]

/-- Settles O54: on whole blocks the number of padding bytes is the one that R283 asks for. -/
theorem unpadAcceptsExactlyPaddedStrings : Obligations.UnpadAcceptsExactlyPaddedStrings := by
  intro x p hblocks
  rw [unpad_eq_some_iff]
  constructor
  · rintro ⟨n, hmin, hmax, rfl⟩
    have hn : n = padCount p.length := by
      rw [List.length_append, List.length_replicate] at hblocks
      rw [padCount]
      omega
    rw [pad, ← hn]
  · rintro rfl
    exact ⟨padCount p.length, by rw [padCount]; omega, by rw [padCount]; omega, rfl⟩

theorem pad_length_mod (p : Bytes) : (pad p).length % 16 = 0 := by
  rw [length_pad]
  omega

theorem unpad_pad (p : Bytes) : unpad (pad p) = some p :=
  (unpadAcceptsExactlyPaddedStrings _ p (pad_length_mod p)).2 rfl

/-! ### CBC mode -/

theorem flatten_blocksOf {size n : Nat} {b : Bytes} (h : b.length = size * n) : (blocksOf size n b).flatten = b := by
  induction n generalizing b with
  | zero => exact (List.length_eq_zero_iff.1 h).symm
  | succ n ih =>
    have hrest : (b.drop size).length = size * n := by
      rw [List.length_drop, h, Nat.mul_succ, Nat.add_sub_cancel]
    rw [blocksOf, List.flatten_cons, ih hrest, List.take_append_drop]

/-- R281, R282: each block of ciphertext is decrypted and freed of the block before it. -/
theorem cbcDecBlocks_cbcEncBlocks {k prev : Bytes} (hk : k.length = 16) (hprev : prev.length = 16) {ps : List Bytes}
    (hps : ∀ p ∈ ps, p.length = 16) :
    cbcDecBlocks k prev (blocksOf 16 ps.length (cbcEncBlocks k prev ps)) = ps.flatten := by
  induction ps generalizing prev with
  | nil => rfl
  | cons p ps ih =>
    obtain ⟨hp, hps⟩ := List.forall_mem_cons.1 hps
    have hx : (xorBytes p prev).length = 16 := by rw [length_xorBytes, hp, hprev, min_self]
    have hc : (encBlock k (xorBytes p prev)).length = 16 := length_encBlock hk _
    rw [List.length_cons, cbcEncBlocks, blocksOf, cbcDecBlocks, List.take_left' hc, List.drop_left' hc, ih hc hps,
      decBlock_encBlock hk hx, xorBytes_xorBytes (by omega), List.flatten_cons]

theorem cbcDec_cbcEnc {k iv p : Bytes} (hk : k.length = 16) (hiv : iv.length = 16) (hp : p.length % 16 = 0) :
    cbcDec k iv (cbcEnc k iv p) = p := by
  have hwhole : p.length = 16 * (p.length / 16) := by omega
  have hdec := cbcDecBlocks_cbcEncBlocks hk hiv
    (fun x hx => length_of_mem_blocksOf (n := p.length / 16) hwhole.ge hx)
  rw [length_blocksOf, flatten_blocksOf hwhole] at hdec
  rw [cbcDec, length_cbcEnc hk, Nat.mul_div_cancel_left _ (by decide), cbcEnc, hdec]

end Sys2Proof.Machine
end

section
/-! SUPPORT. The two commands under SubKeys, ENCRYPT and DECRYPT: their checks in order and their outcomes
(46_authenticated_encryption.md R285 to R289). -/

namespace Sys2Proof.Machine

/-! ### The commands under SubKeys -/

/-- R94, R264: `i` reads the SubKeys as its first source, a text as its second, and checks the SubKeys' length first. -/
structure SubkeysCommand (i : Instr) : Prop where
  src0 : usesSrc0 i = true
  src1 : usesSrc1 i = true
  keys : ∀ sk b : Bytes, sk.length ≠ 32 → lengthChecks i sk b = some .inputLength

theorem subkeysCommand_encrypt : SubkeysCommand .encrypt := ⟨rfl, rfl, fun _ _ h => if_pos h⟩

theorem subkeysCommand_decrypt (v : Bool) : SubkeysCommand (.decrypt v) := ⟨rfl, rfl, fun _ _ h => if_pos h⟩

section
variable {i : Instr} {s : State}

theorem SubkeysCommand.ne_zeroize (h : SubkeysCommand i) : i ≠ .zeroize := by
  rintro rfl
  exact nomatch h.src0

theorem SubkeysCommand.usedSource0_eq (h : SubkeysCommand i) : usedSource0 i s = source0 s := if_pos h.src0

theorem SubkeysCommand.usedSource1_eq (h : SubkeysCommand i) : usedSource1 i s = source1 s := if_pos h.src1

theorem SubkeysCommand.exec_source_outside (h : SubkeysCommand i) (hout : ¬ (Source0Inside s ∧ Source1Inside s)) :
    exec i s = .next (afterFail s .range) :=
  exec_of_fail h.ne_zeroize (operands_source_outside h.src0 h.src1 hout)

theorem SubkeysCommand.exec_wrong_length (h : SubkeysCommand i) (hsrc0 : Source0Inside s) (hsrc1 : Source1Inside s)
    {c : Code} (hlen : lengthChecks i (source0 s) (source1 s) = some c) : exec i s = .next (afterFail s c) := by
  rw [← h.usedSource0_eq, ← h.usedSource1_eq] at hlen
  exact exec_of_fail h.ne_zeroize (operands_wrong_length (fun _ => hsrc0) (fun _ => hsrc1) hlen)

theorem SubkeysCommand.exec_wrong_keys (h : SubkeysCommand i) (hsrc0 : Source0Inside s) (hsrc1 : Source1Inside s)
    (hkeys : s.lt.ops.src0Len.toNat ≠ 32) : exec i s = .next (afterFail s .inputLength) :=
  h.exec_wrong_length hsrc0 hsrc1 (h.keys _ _ (by rwa [length_source0]))

theorem SubkeysCommand.exec_no_room (h : SubkeysCommand i) (hsrc0 : Source0Inside s) (hsrc1 : Source1Inside s)
    (hlen : lengthChecks i (source0 s) (source1 s) = none)
    (hroom : ¬ DestinationFits s (maxOut i s.lt.ops.src1Len.toNat)) : exec i s = .next (afterFail s .range) := by
  rw [← length_source1, ← h.usedSource1_eq] at hroom
  rw [← h.usedSource0_eq, ← h.usedSource1_eq] at hlen
  exact exec_of_fail h.ne_zeroize
    (operands_no_room (usesDst_of_ne_zeroize h.ne_zeroize) (fun _ => hsrc0) (fun _ => hsrc1) hlen hroom)

theorem SubkeysCommand.operands_pass (h : SubkeysCommand i) (hsrc0 : Source0Inside s) (hsrc1 : Source1Inside s)
    (hlen : lengthChecks i (source0 s) (source1 s) = none)
    (hroom : DestinationFits s (maxOut i s.lt.ops.src1Len.toNat)) :
    operands i s = .ok (source0 s, source1 s) := by
  rw [← length_source1, ← h.usedSource1_eq] at hroom
  rw [← h.usedSource0_eq, ← h.usedSource1_eq] at hlen ⊢
  exact Machine.operands_pass (fun _ => hsrc0) (fun _ => hsrc1) hlen hroom

/-- R97 steps 2 to 4: a check fails, with `RANGE` or the code of a length check, or the command has its sources. -/
theorem SubkeysCommand.exec_or_operands (h : SubkeysCommand i) (s : State) :
    exec i s = .next (afterFail s .range)
      ∨ (∃ c, lengthChecks i (source0 s) (source1 s) = some c ∧ exec i s = .next (afterFail s c))
      ∨ operands i s = .ok (source0 s, source1 s) := by
  by_cases hsrcs : Source0Inside s ∧ Source1Inside s
  · obtain ⟨hsrc0, hsrc1⟩ := hsrcs
    cases hlen : lengthChecks i (source0 s) (source1 s) with
    | some c => exact .inr (.inl ⟨c, rfl, h.exec_wrong_length hsrc0 hsrc1 hlen⟩)
    | none =>
      by_cases hroom : DestinationFits s (maxOut i s.lt.ops.src1Len.toNat)
      · exact .inr (.inr (h.operands_pass hsrc0 hsrc1 hlen hroom))
      · exact .inl (h.exec_no_room hsrc0 hsrc1 hlen hroom)
  · exact .inl (h.exec_source_outside hsrcs)

end

/-! ### ENCRYPT -/

/-- R285: the SubKeys' length is the one length that ENCRYPT checks. -/
theorem lengthChecks_encrypt_pass {sk : Bytes} (hsk : sk.length = 32) (p : Bytes) :
    lengthChecks .encrypt sk p = none :=
  if_neg (not_not.2 hsk)

/-- R285: `OUT_LEN` of an ENCRYPT that completes is the length for which its destination was checked. -/
theorem outLen_afterCommit_sealed {s : State} {iv : Bytes} (hkeys : s.lt.ops.src0Len.toNat = 32)
    (hroom : DestinationFits s (65 + 16 * (s.lt.ops.src1Len.toNat / 16))) (hiv : iv.length = 16) :
    (afterCommit s (sealed (source0 s) iv (source1 s))).outLen.toNat
      = 65 + 16 * (s.lt.ops.src1Len.toNat / 16) := by
  obtain ⟨-, hin⟩ := hroom
  have hlen : (sealed (source0 s) iv (source1 s)).length = 65 + 16 * (s.lt.ops.src1Len.toNat / 16) := by
    rw [length_sealed ((length_source0 s).trans hkeys) hiv, length_source1]
  rw [toNat_outLen_afterCommit (by rwa [hlen]), hlen]

/-- Settles O30: the checks in their order; behind them ENCRYPT is the entropy command that stores the container. -/
theorem encryptStoresTheContainer : Obligations.EncryptStoresTheContainer := by
  refine ⟨decode_encode .encrypt, fun s => ⟨subkeysCommand_encrypt.exec_source_outside, fun h0 h1 hkeys => ?_,
    fun h0 h1 hkeys hroom => ?_, fun h0 h1 hkeys hroom => ?_⟩⟩
  · exact subkeysCommand_encrypt.exec_wrong_keys h0 h1 hkeys
  · exact subkeysCommand_encrypt.exec_no_room h0 h1
      (lengthChecks_encrypt_pass ((length_source0 s).trans hkeys) _) hroom
  · have hsk : (source0 s).length = 32 := (length_source0 s).trans hkeys
    have ho : operands .encrypt s = .ok (source0 s, source1 s) :=
      subkeysCommand_encrypt.operands_pass h0 h1 (lengthChecks_encrypt_pass hsk _) hroom
    refine ⟨fun d hp hent c t out hc ht hout => ?_, fun hp hent => ?_, fun hp => ⟨?_, ?_⟩⟩
    · rw [hout, ← sealed_eq_container hsk hc ht]
      exact ⟨entropyCommand_encrypt.exec_ok ho hp hent,
        outLen_afterCommit_sealed hkeys hroom (length_entropyBytes d)⟩
    · exact entropyCommand_encrypt.exec_unavailable ho hp hent
    · exact entropyCommand_encrypt.exec_request ho hp
    · exact entw_requestEntropy s

/-- R324: an ENCRYPT that completes with code `OK` had its checks passed and stores a container, whose IV the source
gave. -/
theorem encrypt_committed_of_err_ok {s t : State} (hexec : exec .encrypt s = .next t) (hp : t.phase = .idle)
    (hok : t.err = .ok) :
    operands .encrypt s = .ok (source0 s, source1 s)
      ∧ ∃ iv, iv.length = 16 ∧ t = afterCommit s (sealed (source0 s) iv (source1 s)) := by
  rcases subkeysCommand_encrypt.exec_or_operands s with hfail | ⟨c, hlen, hfail⟩ | ho
  · rw [hfail] at hexec
    cases hexec
    exact nomatch hok
  · rw [hfail] at hexec
    cases hexec
    cases hok
    by_cases hsk : (source0 s).length = 32
    · exact nomatch (lengthChecks_encrypt_pass hsk _).symm.trans hlen
    · exact nomatch (subkeysCommand_encrypt.keys _ _ hsk).symm.trans hlen
  · rcases getEntropy16_cases s with ⟨d, hphase, hent, -⟩ | ⟨hphase, hent, -⟩ | ⟨-, hwait⟩
    · rw [entropyCommand_encrypt.exec_ok ho hphase hent] at hexec
      cases hexec
      exact ⟨ho, entropyBytes d, length_entropyBytes d, rfl⟩
    · rw [entropyCommand_encrypt.exec_unavailable ho hphase hent] at hexec
      cases hexec
      exact nomatch hok
    · have hbody : bodyOf .encrypt s (source0 s) (source1 s) = .error .waitEntropy := by
        rw [entropyCommand_encrypt.body, hwait]
        rfl
      rw [exec_of_wait entropyCommand_encrypt.ne_zeroize ho hbody] at hexec
      cases hexec
      exact nomatch hp

/-! ### The length checks of DECRYPT -/

section
variable {sk a : Bytes} {v : Bool}

/-- R286: SubKeys of 32 bytes leave the container to decide. -/
theorem lengthChecks_decrypt_of_keys (hsk : sk.length = 32) :
    lengthChecks (.decrypt v) sk a
      = if a.length < 33 ∨ a.length % 16 ≠ 1 then some .decryptFail
        else if v = true ∧ a.getD 0 0 ≠ 0x01#8 then some .decryptFail else none :=
  if_neg (not_not.2 hsk)

theorem lengthChecks_decrypt_format (hsk : sk.length = 32) (hformat : a.length < 33 ∨ a.length % 16 ≠ 1) :
    lengthChecks (.decrypt v) sk a = some .decryptFail :=
  (lengthChecks_decrypt_of_keys hsk).trans (if_pos hformat)

/-- R287: a wrong version byte fails with the code of the format check, so the format does not matter here. -/
theorem lengthChecks_decrypt_version (hsk : sk.length = 32) (hversion : v = true ∧ a.getD 0 0 ≠ 0x01#8) :
    lengthChecks (.decrypt v) sk a = some .decryptFail := by
  rw [lengthChecks_decrypt_of_keys hsk, if_pos hversion, ite_self]

theorem lengthChecks_decrypt_pass (hsk : sk.length = 32) (hformat : ¬ (a.length < 33 ∨ a.length % 16 ≠ 1))
    (hversion : ¬ (v = true ∧ a.getD 0 0 ≠ 0x01#8)) : lengthChecks (.decrypt v) sk a = none := by
  rw [lengthChecks_decrypt_of_keys hsk, if_neg hformat, if_neg hversion]

theorem lengthChecks_decrypt_code {c : Code} (h : lengthChecks (.decrypt v) sk a = some c) :
    c = .inputLength ∨ c = .decryptFail := by
  by_cases hsk : sk.length = 32
  · rw [lengthChecks_decrypt_of_keys hsk] at h
    split_ifs at h <;> exact .inr (Option.some.inj h).symm
  · rw [(subkeysCommand_decrypt v).keys _ _ hsk] at h
    exact .inl (Option.some.inj h).symm

end

/-! ### The body of DECRYPT -/

section
variable {sk a : Bytes}

/-- R222, R286: the body with the tag's test as an equality of strings. -/
theorem opened_eq (sk a : Bytes) :
    opened sk a
      = if hmacTag (macSubkey sk) (slice a 1 (a.length - 32)) ≠ slice a (a.length - 32) a.length then
          .error (.fail .decryptFail)
        else if a.length < 65 then .error (.fail .decryptFail)
        else (unpad (cbcDec (cipherSubkey sk) (slice a 1 17) (slice a 17 (a.length - 32)))).elim
          (.error (.fail .decryptFail)) .ok := by
  simp only [opened, tagEq, beq_eq_false_iff_ne]
  cases unpad (cbcDec (cipherSubkey sk) (slice a 1 17) (slice a 17 (a.length - 32))) <;> rfl

theorem opened_wrong_tag
    (htag : hmacTag (macSubkey sk) (slice a 1 (a.length - 32)) ≠ slice a (a.length - 32) a.length) :
    opened sk a = .error (.fail .decryptFail) :=
  (opened_eq sk a).trans (if_pos htag)

/-- R289: a container too short for a block of ciphertext fails whether or not its tag is right. -/
theorem opened_short (hlen : a.length < 65) : opened sk a = .error (.fail .decryptFail) := by
  rw [opened_eq, if_pos hlen, ite_self]

theorem opened_bad_padding
    (hpad : unpad (cbcDec (cipherSubkey sk) (slice a 1 17) (slice a 17 (a.length - 32))) = none) :
    opened sk a = .error (.fail .decryptFail) := by
  rw [opened_eq, hpad, Option.elim_none, ite_self, ite_self]

theorem opened_plaintext {p : Bytes}
    (htag : hmacTag (macSubkey sk) (slice a 1 (a.length - 32)) = slice a (a.length - 32) a.length)
    (hlen : 65 ≤ a.length)
    (hpad : unpad (cbcDec (cipherSubkey sk) (slice a 1 17) (slice a 17 (a.length - 32))) = some p) :
    opened sk a = .ok p := by
  rw [opened_eq, if_neg (not_not.2 htag), if_neg (Nat.not_lt.2 hlen), hpad, Option.elim_some]

end

/-! ### DECRYPT -/

/-- R286: what DECRYPT checks before its body runs, but for the room at its destination. -/
structure DecryptSources (v : Bool) (s : State) : Prop where
  src0 : Source0Inside s
  src1 : Source1Inside s
  keys : s.lt.ops.src0Len.toNat = 32
  format : ¬ (s.lt.ops.src1Len.toNat < 33 ∨ s.lt.ops.src1Len.toNat % 16 ≠ 1)
  version : ¬ (v = true ∧ (source1 s).getD 0 0 ≠ 0x01#8)

section
variable {v : Bool} {s : State}

theorem exec_decrypt_format (h0 : Source0Inside s) (h1 : Source1Inside s) (hkeys : s.lt.ops.src0Len.toNat = 32)
    (hformat : s.lt.ops.src1Len.toNat < 33 ∨ s.lt.ops.src1Len.toNat % 16 ≠ 1) :
    exec (.decrypt v) s = .next (afterFail s .decryptFail) := by
  rw [← length_source1] at hformat
  exact (subkeysCommand_decrypt v).exec_wrong_length h0 h1
    (lengthChecks_decrypt_format ((length_source0 s).trans hkeys) hformat)

/-- R287: a wrong version byte fails with `V = 1` whatever the rest of the container. -/
theorem exec_decrypt_version (h0 : Source0Inside s) (h1 : Source1Inside s) (hkeys : s.lt.ops.src0Len.toNat = 32)
    (hversion : v = true ∧ (source1 s).getD 0 0 ≠ 0x01#8) :
    exec (.decrypt v) s = .next (afterFail s .decryptFail) :=
  (subkeysCommand_decrypt v).exec_wrong_length h0 h1
    (lengthChecks_decrypt_version ((length_source0 s).trans hkeys) hversion)

theorem DecryptSources.lengthChecks (h : DecryptSources v s) :
    lengthChecks (.decrypt v) (source0 s) (source1 s) = none := by
  have hformat := h.format
  rw [← length_source1] at hformat
  exact lengthChecks_decrypt_pass ((length_source0 s).trans h.keys) hformat h.version

theorem DecryptSources.exec_no_room (h : DecryptSources v s)
    (hroom : ¬ DestinationFits s (if s.lt.ops.src1Len.toNat ≥ 65 then s.lt.ops.src1Len.toNat - 50 else 0)) :
    exec (.decrypt v) s = .next (afterFail s .range) :=
  (subkeysCommand_decrypt v).exec_no_room h.src0 h.src1 h.lengthChecks hroom

section
variable (h : DecryptSources v s)
  (hroom : DestinationFits s (if s.lt.ops.src1Len.toNat ≥ 65 then s.lt.ops.src1Len.toNat - 50 else 0))
include h hroom

theorem DecryptSources.exec_fail (hopened : opened (source0 s) (source1 s) = .error (.fail .decryptFail)) :
    exec (.decrypt v) s = .next (afterFail s .decryptFail) :=
  exec_of_body_fail nofun ((subkeysCommand_decrypt v).operands_pass h.src0 h.src1 h.lengthChecks hroom) hopened

theorem DecryptSources.exec_output {p : Bytes} (hopened : opened (source0 s) (source1 s) = .ok p) :
    exec (.decrypt v) s = .next (afterCommit s p) :=
  exec_of_output nofun ((subkeysCommand_decrypt v).operands_pass h.src0 h.src1 h.lengthChecks hroom) hopened

/-- R286: the plaintext lies in the room that was checked for it, so `OUT_LEN` counts it. -/
theorem DecryptSources.outLen_afterCommit {p : Bytes} (hopened : opened (source0 s) (source1 s) = .ok p) :
    (afterCommit s p).outLen.toNat = p.length := by
  obtain ⟨-, hin⟩ := hroom
  rcases opened_cases (a := source1 s) ((length_source0 s).trans h.keys) with ⟨q, hq, h65, hle⟩ | hfail
  · obtain rfl : q = p := Except.ok.inj (hq.symm.trans hopened)
    rw [length_source1] at h65 hle
    rw [if_pos h65] at hin
    exact toNat_outLen_afterCommit (by omega)
  · exact nomatch hfail.symm.trans hopened

end

end

/-- Settles O31: the checks in R286's order, then the outcomes of the body. -/
theorem decryptVerifiesThenDecrypts : Obligations.DecryptVerifiesThenDecrypts := by
  refine ⟨decode_encode (.decrypt false), decode_encode (.decrypt true), ?_⟩
  rintro v s _ _ rfl rfl
  refine ⟨(subkeysCommand_decrypt v).exec_source_outside, fun h0 h1 =>
    ⟨(subkeysCommand_decrypt v).exec_wrong_keys h0 h1, exec_decrypt_format h0 h1, fun hkeys _ hv hbyte => ?_,
      fun hkeys hformat hversion hroom => ?_, fun hkeys hformat hversion hroom => ?_⟩⟩
  · exact exec_decrypt_version h0 h1 hkeys ⟨hv, hbyte⟩
  · exact DecryptSources.exec_no_room ⟨h0, h1, hkeys, hformat, hversion⟩ hroom
  · have hs : DecryptSources v s := ⟨h0, h1, hkeys, hformat, hversion⟩
    have hsk : (source0 s).length = 32 := (length_source0 s).trans hkeys
    rw [← macSubkey_eq_drop hsk, ← length_source1]
    refine ⟨fun htag => ?_, fun hshort => ?_, fun hpad => ?_, fun p htag hlen hpad => ?_⟩
    · exact hs.exec_fail hroom (opened_wrong_tag htag)
    · exact hs.exec_fail hroom (opened_short hshort)
    · exact hs.exec_fail hroom (opened_bad_padding hpad)
    · have hopened : opened (source0 s) (source1 s) = .ok p := opened_plaintext htag hlen hpad
      exact ⟨hs.exec_output hroom hopened, hs.outLen_afterCommit hroom hopened⟩

/-- Settles O43: each check and the body fail with one of the three codes, and every failure is `afterFail`. -/
theorem decryptFailureGivesNothing : Obligations.DecryptFailureGivesNothing := by
  intro v s t hexec herr
  rcases (subkeysCommand_decrypt v).exec_or_operands s with hfail | ⟨c, hlen, hfail⟩ | ho
  · rw [hfail] at hexec
    cases hexec
    exact ⟨.inl rfl, rfl⟩
  · rw [hfail] at hexec
    cases hexec
    exact ⟨.inr (lengthChecks_decrypt_code hlen), rfl⟩
  · have hsk : (source0 s).length = 32 := by
      obtain ⟨-, -, -, -, hlen, -⟩ := operands_ok ho
      by_contra hne
      exact nomatch ((subkeysCommand_decrypt v).keys _ _ hne).symm.trans hlen
    rcases opened_cases (a := source1 s) hsk with ⟨p, hp, -, -⟩ | hfail
    · rw [exec_of_output (subkeysCommand_decrypt v).ne_zeroize ho hp] at hexec
      cases hexec
      exact absurd rfl herr
    · rw [exec_of_body_fail (subkeysCommand_decrypt v).ne_zeroize ho hfail] at hexec
      cases hexec
      exact ⟨.inr (.inr rfl), rfl⟩

/-- Settles O44: such a container passes the format check, and then fails by its version byte or by its length. -/
theorem shortContainersFail : Obligations.ShortContainersFail := by
  intro v s h0 h1 hkeys hlen hroom
  by_cases hversion : v = true ∧ (source1 s).getD 0 0 ≠ 0x01#8
  · exact exec_decrypt_version h0 h1 hkeys hversion
  · have hs : DecryptSources v s := ⟨h0, h1, hkeys, by omega, hversion⟩
    have hshort : ¬ s.lt.ops.src1Len.toNat ≥ 65 := by omega
    refine hs.exec_fail (by rwa [if_neg hshort]) (opened_short ?_)
    rw [length_source1]
    omega

end Sys2Proof.Machine
end

section
/-! SUPPORT. The container: its version byte, its parts, and DECRYPT of what ENCRYPT stored
(46_authenticated_encryption.md R285 to R290). -/

namespace Sys2Proof.Machine

/-! ### The version byte -/

theorem slice_cons_congr {i : Nat} (hi : 1 ≤ i) (x y : Byte) (rest : Bytes) (j : Nat) :
    slice (x :: rest) i j = slice (y :: rest) i j := by
  obtain ⟨k, rfl⟩ := Nat.exists_eq_add_of_le' hi
  rfl

/-- R287: with `V = 0` the checks see the container's length only. -/
theorem lengthChecks_decrypt_false_congr {a a' : Bytes} (h : a.length = a'.length) (sk : Bytes) :
    lengthChecks (.decrypt false) sk a = lengthChecks (.decrypt false) sk a' := by
  simp [lengthChecks, h]

/-- R286, R287: the tag, the IV and the ciphertext all stand behind the version byte. -/
theorem opened_cons_congr {rest : Bytes} (hrest : 32 ≤ rest.length) (sk : Bytes) (x y : Byte) :
    opened sk (x :: rest) = opened sk (y :: rest) := by
  have htag : 1 ≤ (y :: rest).length - 32 := by
    rw [List.length_cons]
    omega
  have hlen : (x :: rest).length = (y :: rest).length := rfl
  rw [opened_eq, opened_eq, hlen, slice_cons_congr le_rfl x y, slice_cons_congr htag x y,
    slice_cons_congr le_rfl x y, slice_cons_congr (by decide : 1 ≤ 17) x y]

/-- Settles O45: no part of DECRYPT reads the first byte but the check of `V = 1`; ENCRYPT puts `0x01` there. -/
theorem versionByteCheckedOnlyWithV : Obligations.VersionByteCheckedOnlyWithV :=
  ⟨fun sk _ x y hrest => ⟨lengthChecks_decrypt_false_congr rfl sk, opened_cons_congr hrest sk x y⟩,
    fun _ h0 h1 hkeys hbyte => exec_decrypt_version h0 h1 hkeys ⟨rfl, hbyte⟩, fun _ _ _ => rfl⟩

/-! ### The parts of a container -/

section
variable {iv c tag : Bytes} (x : Byte) (hiv : iv.length = 16) (htag : tag.length = 32)

/-- R280: a container is its version byte, its IV, its ciphertext and its tag. -/
def container (x : Byte) (iv c tag : Bytes) : Bytes := x :: iv ++ c ++ tag

include hiv htag in
theorem length_container : (container x iv c tag).length = 49 + c.length := by
  simp only [container, List.length_append, List.length_cons, hiv, htag]
  omega

include hiv htag in
theorem slice_container_authenticated :
    slice (container x iv c tag) 1 ((container x iv c tag).length - 32) = iv ++ c := by
  have hparts : container x iv c tag = [x] ++ (iv ++ c) ++ tag := by simp [container]
  rw [length_container x hiv htag, hparts]
  refine slice_append_append rfl ?_
  rw [List.length_append, hiv, List.length_singleton]
  omega

include hiv htag in
theorem slice_container_tag :
    slice (container x iv c tag) ((container x iv c tag).length - 32) (container x iv c tag).length = tag := by
  have hstart : (container x iv c tag).length - 32 = (x :: iv ++ c).length := by
    rw [length_container x hiv htag, List.length_append, List.length_cons, hiv]
    omega
  rw [hstart, slice_to_length, container, List.drop_left]

include hiv in
theorem slice_container_iv : slice (container x iv c tag) 1 17 = iv := by
  have hparts : container x iv c tag = [x] ++ iv ++ (c ++ tag) := by simp [container]
  rw [hparts]
  exact slice_append_append rfl (by rw [hiv]; rfl)

include hiv htag in
theorem slice_container_ciphertext :
    slice (container x iv c tag) 17 ((container x iv c tag).length - 32) = c := by
  rw [length_container x hiv htag, container]
  have hstart : 17 = (x :: iv).length := by rw [List.length_cons, hiv]
  exact slice_append_append hstart (by omega)

end

/-! ### Opening what was sealed -/

/-- R285: the container that ENCRYPT stores, with its ciphertext and tag named. -/
theorem sealed_eq (sk iv p : Bytes) :
    sealed sk iv p
      = container 0x01#8 iv (cbcEnc (cipherSubkey sk) iv (pad p))
          (hmacTag (macSubkey sk) (iv ++ cbcEnc (cipherSubkey sk) iv (pad p))) := rfl

/-- R290 item 1: the tag is the one that was computed, and behind it the cipher and the padding are undone. -/
theorem opened_sealed {sk iv : Bytes} (hsk : sk.length = 32) (hiv : iv.length = 16) (p : Bytes) :
    opened sk (sealed sk iv p) = .ok p := by
  have htag := length_hmacTag (macSubkey sk) (iv ++ cbcEnc (cipherSubkey sk) iv (pad p))
  have hkey : (cipherSubkey sk).length = 16 := length_cipherSubkey hsk
  refine opened_plaintext ?_ ?_ ?_
  · rw [sealed_eq, slice_container_authenticated _ hiv htag, slice_container_tag _ hiv htag]
  · rw [length_sealed hsk hiv]
    omega
  · rw [sealed_eq, slice_container_iv _ hiv, slice_container_ciphertext _ hiv htag,
      cbcDec_cbcEnc hkey hiv (pad_length_mod p), unpad_pad]

/-- R286: the container that ENCRYPT stores passes DECRYPT's format check, and its version check with either `V`. -/
theorem decryptSources_of_sealed {v : Bool} {u : State} {iv p : Bytes} (h0 : Source0Inside u) (h1 : Source1Inside u)
    (hsk : (source0 u).length = 32) (hiv : iv.length = 16) (hsealed : source1 u = sealed (source0 u) iv p) :
    DecryptSources v u := by
  have hlen : u.lt.ops.src1Len.toNat = 65 + 16 * (p.length / 16) := by
    rw [← length_source1, hsealed, length_sealed hsk hiv]
  refine ⟨h0, h1, (length_source0 u).symm.trans hsk, by omega, ?_⟩
  rintro ⟨-, hbyte⟩
  rw [hsealed] at hbyte
  exact hbyte rfl

/-- Settles O56: DECRYPT reads the container that ENCRYPT committed, passes its checks, and opens it. -/
theorem decryptUndoesEncrypt : Obligations.DecryptUndoesEncrypt := by
  intro v s t u hwf hexec hp hok hdbuf hkeys hu0 haddr hlen hroom
  obtain ⟨ho, iv, hiv, rfl⟩ := encrypt_committed_of_err_ok hexec hp hok
  obtain ⟨-, -, hsklen, -, hin⟩ := encrypt_checks ho
  have hsk : (source0 s).length = 32 := (length_source0 s).trans hsklen
  have hsealedLen : (sealed (source0 s) iv (source1 s)).length = 65 + 16 * (s.lt.ops.src1Len.toNat / 16) := by
    rw [length_sealed hsk hiv, length_source1]
  obtain ⟨hu1, hsealed⟩ := source1_of_committed hwf (by rwa [hsealedLen]) hdbuf haddr hlen
  rw [← hkeys] at hsk hsealed
  have hlong : u.lt.ops.src1Len.toNat ≥ 65 := by
    rw [← length_source1, hsealed, length_sealed hsk hiv]
    omega
  have hu : DecryptSources v u := decryptSources_of_sealed hu0 hu1 hsk hiv hsealed
  rw [← hlen] at hroom
  refine hu.exec_output (by rwa [if_pos hlong]) ?_
  rw [hsealed, opened_sealed hsk hiv]

end Sys2Proof.Machine
end

section
/-! SUPPORT. What one step performs, how a running command ends, and the queue that every step shortens (10_state.md R34;
60_exceptions.md R324; 70_reset_and_hazards.md R360, R373). -/

namespace Sys2Proof.Machine

/-! ### The event that a step performs -/

/-- R373: the event that the next step performs, an engine step when none is left. -/
def nextEvent (s : State) : Event := s.env.headD .engine

theorem step_of_env_nil {s : State} (henv : s.env = []) : step s = engineStep s := by
  rw [step, henv]

theorem step_of_env_cons {s : State} {e : Event} {rest : List Event} (henv : s.env = e :: rest) :
    step s = applyEvent e { s with env := rest } := by
  rw [step, henv]

/-- An empty queue is no special case: it behaves as one with an engine step at its head. -/
theorem step_eq_applyEvent (s : State) : step s = applyEvent (nextEvent s) { s with env := s.env.tail } := by
  cases henv : s.env with
  | nil =>
    have hsame : { s with env := [] } = s := by rw [← henv]
    rw [step_of_env_nil henv, nextEvent, henv, List.tail_nil, hsame]
    rfl
  | cons e rest => rw [step_of_env_cons henv, nextEvent, henv, List.headD_cons, List.tail_cons]

theorem head?_env_eq_some_iff {s : State} {e : Event} (he : e ≠ .engine) :
    s.env.head? = some e ↔ nextEvent s = e := by
  rw [nextEvent]
  cases s.env with
  | nil => simp [he.symm]
  | cons e' rest => simp

theorem nextEvent_eq_engine_iff {s : State} : nextEvent s = .engine ↔ s.env = [] ∨ s.env.head? = some .engine := by
  rw [nextEvent]
  cases s.env <;> simp

/-- Settles O24: reset reads nothing of the state but the queue it leaves. -/
theorem resetFromAnyPhase : Obligations.ResetFromAnyPhase := fun _ _ henv => step_of_env_cons henv

/-! ### The running command -/

theorem runCommand_decoded {s : State} {i : Instr} (hdec : decode s.lt.cmd = .ok i) : runCommand s = exec i s := by
  rw [runCommand, hdec]

theorem engineStep_decoded {s : State} {i : Instr} (hp : s.phase ≠ .idle) (hdec : decode s.lt.cmd = .ok i) :
    engineStep s = exec i s :=
  (engineStep_running hp).trans (runCommand_decoded hdec)

/-- R28: what the next step fetches is the word that the issue puts in the snapshot. -/
theorem step_withFetchWord (s : State) (w : Word) : step (s.withFetchWord 32 w.toNat) = engineStep (issue s w) := by
  have hword : BitVec.ofNat 32 (w.toNat % 2 ^ 32) = w := by
    rw [Nat.mod_eq_of_lt w.isLt, BitVec.ofNat_toNat, BitVec.setWidth_eq]
  rw [State.withFetchWord, hword]
  rfl

/-- Settles O4: a step is what the head of the queue does, and a running engine runs the decoded command. -/
theorem stepRunsTheDecodedCommand : Obligations.StepRunsTheDecodedCommand := by
  refine ⟨fun s i hp hdec => ⟨fun henv => ?_, fun rest henv => ?_⟩, fun s i => ?_,
    fun s => ⟨step_of_env_nil, fun _ => step_of_env_cons, engineStep_idle⟩,
    fun _ _ _ _ => step_of_env_cons, fun _ _ _ _ _ => step_of_env_cons⟩
  · rw [step_of_env_nil henv, engineStep_decoded hp hdec]
  · rw [step_of_env_cons henv]
    exact engineStep_decoded (s := { s with env := rest }) hp hdec
  · rw [step_withFetchWord]
    exact engineStep_decoded (by rw [issue_phase]; nofun) (decode_encode i)

/-- R324, R240: a command completes, or asks for entropy. -/
theorem exec_completes_or_waits {i : Instr} {s t : State} (h : exec i s = .next t) :
    (t.phase = .idle ∧ t.done = true) ∨ (t = requestEntropy s ∧ (i = .createKey ∨ i = .encrypt)) := by
  rcases exec_cases h with ⟨-, rfl⟩ | ⟨-, a, b, out, -, -, -, rfl⟩ | ⟨-, c, rfl⟩ | ⟨a, b, hi, -, -, rfl⟩
  · exact .inl ⟨rfl, rfl⟩
  · exact .inl ⟨rfl, rfl⟩
  · exact .inl ⟨rfl, rfl⟩
  · exact .inr ⟨rfl, hi⟩

theorem runCommand_cases {s t : State} (h : runCommand s = .next t) :
    (t.phase = .idle ∧ t.done = true)
      ∨ (t = requestEntropy s ∧ (decode s.lt.cmd = .ok .createKey ∨ decode s.lt.cmd = .ok .encrypt)) := by
  cases hdec : decode s.lt.cmd with
  | error e =>
    rw [runCommand_illegal (illegalWord_of_decode_error hdec)] at h
    cases h
    exact .inl ⟨rfl, rfl⟩
  | ok i =>
    rw [runCommand_decoded hdec] at h
    rcases exec_completes_or_waits h with hdone | ⟨ht, hi⟩
    · exact .inl hdone
    · exact .inr ⟨ht, hi.imp (congrArg _) (congrArg _)⟩

theorem runCommand_phase_ne_exec {s t : State} (h : runCommand s = .next t) : t.phase ≠ .exec := by
  rcases runCommand_cases h with ⟨hp, -⟩ | ⟨rfl, -⟩
  · rw [hp]
    nofun
  · nofun

theorem runCommand_env {s t : State} (h : runCommand s = .next t) : t.env = s.env := by
  cases hdec : decode s.lt.cmd with
  | error e =>
    rw [runCommand_illegal (illegalWord_of_decode_error hdec)] at h
    cases h
    rfl
  | ok i =>
    rw [runCommand_decoded hdec] at h
    obtain ⟨-, -, -, -, -, -, henv⟩ := exec_keeps_registers h
    exact henv

theorem engineStep_phase_ne_exec {s t : State} (h : engineStep s = .next t) : t.phase ≠ .exec := by
  by_cases hp : s.phase = .idle
  · rw [engineStep_idle hp] at h
    cases h
    rw [hp]
    nofun
  · rw [engineStep_running hp] at h
    exact runCommand_phase_ne_exec h

/-! ### A step takes one event from the queue -/

theorem engineStep_env {s t : State} (h : engineStep s = .next t) : t.env = s.env := by
  by_cases hp : s.phase = .idle
  · rw [engineStep_idle hp] at h
    cases h
    rfl
  · rw [engineStep_running hp] at h
    exact runCommand_env h

theorem entropyArrives_env {s t : State} {a : EntropyAnswer} (h : entropyArrives s a = .next t) : t.env = s.env := by
  by_cases hp : s.phase = .waitEnt
  · rw [entropyArrives_waiting hp] at h
    exact runCommand_env (s := { s with ent := some a }) h
  · rw [entropyArrives_unasked hp] at h
    cases h
    rfl

theorem applyEvent_env {s t : State} {e : Event} (h : applyEvent e s = .next t) : t.env = s.env := by
  cases e with
  | busRead off n => cases h; rfl
  | busWrite off n d => cases h; exact busWrite_env s off n d
  | engine => exact engineStep_env h
  | entropy a => exact entropyArrives_env h
  | reset => cases h; rfl

theorem step_env {s t : State} (h : step s = .next t) : t.env = s.env.tail := by
  rw [step_eq_applyEvent] at h
  exact applyEvent_env h

/-- R373: when the queue is used up, one more step is the engine's. -/
theorem stepN_uses_up_queue (n : Nat) {s : State} (hn : s.env.length = n) :
    ∃ t, stepN (n + 1) s = .next t ∧ t.env = [] ∧ t.phase ≠ .exec := by
  induction n generalizing s with
  | zero =>
    have hnil : s.env = [] := List.length_eq_zero_iff.1 hn
    obtain ⟨t, ht⟩ := everyStepAnswersNext s
    refine ⟨t, stepN_succ_of_step ht 0, ?_, engineStep_phase_ne_exec ((step_of_env_nil hnil).symm.trans ht)⟩
    rw [step_env ht, hnil, List.tail_nil]
  | succ n ih =>
    obtain ⟨u, hu⟩ := everyStepAnswersNext s
    have hlen : u.env.length = n := by rw [step_env hu, List.length_tail, hn, Nat.add_sub_cancel]
    obtain ⟨t, ht, hend⟩ := ih hlen
    exact ⟨t, (stepN_succ_of_step hu _).trans ht, hend⟩

/-- Settles O6, by induction on the events still to come. -/
theorem engineFinishesAfterItsInputs : Obligations.EngineFinishesAfterItsInputs := fun s =>
  stepN_uses_up_queue s.env.length rfl

end Sys2Proof.Machine
end

section
/-! SUPPORT. The transactions answered `ERROR`, and the bus writes that do more than fill a register or `DBUF`
(10_state.md R22 to R31; 20_memory.md R63 to R66; 60_exceptions.md R321). -/

namespace Sys2Proof.Machine

/-- Settles O12: the three causes are those of `accepted`, and an accepted transaction is answered `OKAY`. -/
theorem busErrorCausesAndEffect : Obligations.BusErrorCausesAndEffect := by
  intro s off n d
  rw [← accepted_eq_false, Bool.not_eq_false]
  refine ⟨fun hrefused => ⟨busRead_refused s hrefused, busWrite_refused s hrefused d⟩, fun hacc => ⟨?_, ?_⟩⟩
  · rw [readAnswer, if_pos hacc]
  · rw [busWrite, if_pos hacc]

/-- R63: an accepted transaction of the register window is one of four bytes. -/
theorem size_of_accepted_register {off : Offset} {n : BusSize} {r : Reg} (hacc : accepted off n = true)
    (h : regAt off.toNat = some r) : n = .four := by
  obtain ⟨hlt, -⟩ := regAt_aligned h
  by_contra hn
  exact nomatch hacc.symm.trans (accepted_eq_false.2 (.inl ⟨hlt, hn⟩))

/-- R22: a register stands at one offset only. -/
theorem regAt_injective {off off' : Offset} {r : Reg} (h : regAt off.toNat = some r) (h' : regAt off'.toNat = some r) :
    off = off' := by
  have hoffset := regAt_cases h
  have hoffset' := regAt_cases h'
  apply BitVec.eq_of_toNat_eq
  cases r <;> simp only [reduceCtorEq, and_false, and_true, false_or, or_false] at hoffset hoffset' <;> omega

/-- R29, R30: a write of the operand registers changes them, or sets `WERR`. -/
theorem operandWrite_cases (s : State) (ops : OperandRegs) :
    ∃ ops' werr, operandWrite s ops = { s with ops := ops', werr := werr } := by
  by_cases hp : s.phase = .idle
  · exact ⟨ops, s.werr, operandWrite_idle hp ops⟩
  · exact ⟨s.ops, true, operandWrite_busy hp ops⟩

/-- R23 to R31: CTRL, STATUS and, while idle, CMD are the registers whose write does more than fill an operand register
or set `WERR`. -/
theorem regWrite_cases (s : State) (r : Reg) (w : Word) :
    r = .ctrl ∨ r = .status ∨ (r = .cmd ∧ s.phase = .idle)
      ∨ ∃ ops werr, regWrite s r w = { s with ops := ops, werr := werr } := by
  cases r with
  | ctrl => exact .inl rfl
  | status => exact .inr (.inl rfl)
  | cmd =>
    by_cases hp : s.phase = .idle
    · exact .inr (.inr (.inl ⟨rfl, hp⟩))
    · exact .inr (.inr (.inr ⟨s.ops, true, regWrite_dropped hp List.mem_cons_self w⟩))
  | id | cap | outLen => exact .inr (.inr (.inr ⟨s.ops, s.werr, rfl⟩))
  | src0Addr | src0Len | src1Addr | src1Len | dstAddr | dstCap =>
    exact .inr (.inr (.inr (operandWrite_cases s _)))

/-- R22, R30, R66: the same of a bus write, which can also fill `DBUF` and is always answered. -/
theorem busWrite_cases (s : State) (off : Offset) (n : BusSize) (d : Word) :
    (off = 0x008#13 ∧ n = .four) ∨ (off = 0x00C#13 ∧ n = .four) ∨ (off = 0x010#13 ∧ n = .four ∧ s.phase = .idle)
      ∨ ∃ ops werr dbuf resp,
          busWrite s off n d = { s with ops := ops, werr := werr, dbuf := dbuf, resp := resp } := by
  cases hacc : accepted off n with
  | false => exact .inr (.inr (.inr ⟨_, _, _, _, busWrite_refused s hacc d⟩))
  | true =>
    by_cases hlt : off.toNat < 0x1000
    · cases hreg : regAt off.toNat with
      | none =>
        refine .inr (.inr (.inr ⟨s.ops, s.werr, s.dbuf, some okayWrite, ?_⟩))
        rw [busWrite, if_pos hacc, writeEffect, dbufOffset, if_pos hlt, hreg]
      | some r =>
        obtain rfl := size_of_accepted_register hacc hreg
        rcases regWrite_cases s r d with rfl | rfl | ⟨rfl, hp⟩ | ⟨ops, werr, hwrite⟩
        · exact .inl ⟨regAt_injective hreg (off' := 0x008#13) rfl, rfl⟩
        · exact .inr (.inl ⟨regAt_injective hreg (off' := 0x00C#13) rfl, rfl⟩)
        · exact .inr (.inr (.inl ⟨regAt_injective hreg (off' := 0x010#13) rfl, rfl, hp⟩))
        · exact .inr (.inr (.inr ⟨ops, werr, s.dbuf, _, by rw [busWrite_register s hreg, hwrite]⟩))
    · have hal : off.toNat % sizeBytes n = 0 := by
        by_contra hmis
        exact nomatch hacc.symm.trans (accepted_eq_false.2 (.inr (.inr ⟨Nat.not_lt.1 hlt, hmis⟩)))
      by_cases hp : s.phase = .idle
      · exact .inr (.inr (.inr ⟨_, _, _, _, busWrite_dbuf_idle (Nat.not_lt.1 hlt) hal hp d⟩))
      · exact .inr (.inr (.inr ⟨_, _, _, _, busWrite_dbuf_dropped hp (Nat.not_lt.1 hlt) hal d⟩))

/-- R30, R66: a write while busy leaves the running command as it was. -/
theorem busWrite_sameCommand {s : State} (hp : s.phase ≠ .idle) (off : Offset) (n : BusSize) (d : Word) :
    SameCommand s (busWrite s off n d) := by
  obtain ⟨hphase, hlt, hcmd, hops, herr, hout, hdbuf, hent, hdone⟩ :=
    busWrite_while_busy (off := off) (n := n) (d := d) hp
  exact ⟨hphase, hlt, hcmd, hops, herr, hout, hdbuf, hent, hdone⟩

end Sys2Proof.Machine
end

section
/-! SUPPORT. What each event does to an idle, an executing and a waiting machine: the engine's transitions, and the wait
that only an answer or reset ends (10_state.md R34; 44_key_derivation.md R240; 70_reset_and_hazards.md R360, R371). -/

namespace Sys2Proof.Machine

/-! ### Events of an idle machine -/

/-- R34: an idle machine that takes an event stays idle or is issued a command. -/
theorem applyEvent_idle {s t : State} {e : Event} (hp : s.phase = .idle) (h : applyEvent e s = .next t) :
    t.phase = .idle
      ∨ (t.phase = .exec ∧ ∃ w, e = .busWrite 0x010#13 .four w ∧ t.lt = { cmd := w, ops := s.ops }) := by
  cases e with
  | busRead off n => cases h; exact .inl hp
  | busWrite off n d =>
    cases h
    rcases busWrite_cases s off n d with ⟨rfl, rfl⟩ | ⟨rfl, rfl⟩ | ⟨rfl, rfl, -⟩ | ⟨ops, werr, dbuf, resp, hw⟩
    · rw [busWrite_ctrl]; exact .inl hp
    · rw [busWrite_status]; exact .inl hp
    · rw [busWrite_cmd_idle hp]; exact .inr ⟨rfl, d, rfl, rfl⟩
    · rw [hw]; exact .inl hp
  | engine => cases (engineStep_idle hp).symm.trans h; exact .inl hp
  | entropy a => cases (entropyArrives_unasked (by rw [hp]; nofun) a).symm.trans h; exact .inl hp
  | reset => cases h; exact .inl rfl

/-! ### Events of a machine that executes -/

/-- R34, R240, R360: what becomes of a machine that executes a command. -/
theorem applyEvent_exec {s t : State} {e : Event} (hp : s.phase = .exec) (h : applyEvent e s = .next t) :
    t.phase = .exec ∨ (e = .reset ∧ t = resetState s)
      ∨ (e = .engine ∧ engineStep s = .next t ∧ t.phase = .idle ∧ t.done = true)
      ∨ (e = .engine ∧ t.phase = .waitEnt
          ∧ (decode s.lt.cmd = .ok .createKey ∨ decode s.lt.cmd = .ok .encrypt)) := by
  have hbusy : s.phase ≠ .idle := by rw [hp]; nofun
  cases e with
  | busRead off n => cases h; exact .inl hp
  | busWrite off n d => cases h; exact .inl ((busWrite_sameCommand hbusy off n d).phase.trans hp)
  | engine =>
    rcases runCommand_cases ((engineStep_running hbusy).symm.trans h) with ⟨hidle, hdone⟩ | ⟨rfl, hdec⟩
    · exact .inr (.inr (.inl ⟨rfl, h, hidle, hdone⟩))
    · exact .inr (.inr (.inr ⟨rfl, rfl, hdec⟩))
  | entropy a => cases (entropyArrives_unasked (by rw [hp]; nofun) a).symm.trans h; exact .inl hp
  | reset => cases h; exact .inr (.inl ⟨rfl, rfl⟩)

/-! ### Events of a machine that waits -/

/-- R240: the request of a waiting command with no answer is already outstanding. -/
theorem requestEntropy_waiting {s : State} (hp : s.phase = .waitEnt) (hent : s.ent = none) : requestEntropy s = s := by
  rw [requestEntropy, ← hp, ← hent]

/-- R371: without an answer the engine's step leaves a waiting machine as it is. -/
theorem MachineInv.engineStep_waiting {s : State} (hs : MachineInv s) (hp : s.phase = .waitEnt) :
    Machine.engineStep s = .next s := by
  obtain ⟨i, f, hdec, hi⟩ := hs.waiting_entropyCommand hp
  obtain ⟨a, b, ho⟩ := hs.waiting_operands hp hdec
  have hbody : bodyOf i s a b = .error .waitEntropy := by
    rw [hi.body, getEntropy16, hp, hs.no_answer]
    rfl
  rw [engineStep_decoded (by rw [hp]; nofun) hdec, exec_of_wait hi.ne_zeroize ho hbody,
    requestEntropy_waiting hp hs.no_answer]

/-- R240, R371, R360: what becomes of a machine that waits for the entropy source. -/
theorem MachineInv.applyEvent_waiting {s t : State} {e : Event} (hs : MachineInv s) (hp : s.phase = .waitEnt)
    (h : Machine.applyEvent e s = .next t) :
    SameCommand s t ∨ (e = .reset ∧ t = resetState s) ∨ ((∃ a, e = .entropy a) ∧ t.done = true) := by
  cases e with
  | busRead off n => cases h; exact .inl ⟨rfl, rfl, rfl, rfl, rfl, rfl, rfl, rfl, id⟩
  | busWrite off n d => cases h; exact .inl (busWrite_sameCommand (by rw [hp]; nofun) off n d)
  | engine => cases (hs.engineStep_waiting hp).symm.trans h; exact .inl (.refl s)
  | entropy a =>
    obtain ⟨-, hdone, -⟩ := step_answer_completes (s := { s with env := .entropy a :: s.env }) (hs.with_env _) hp rfl h
    exact .inr (.inr ⟨⟨a, rfl⟩, hdone⟩)
  | reset => cases h; exact .inr (.inl ⟨rfl, rfl⟩)

/-- Log entry 4: from the wait no event leads back to EXEC, in any state. -/
theorem applyEvent_waiting_ne_exec {s t : State} {e : Event} (hp : s.phase = .waitEnt)
    (h : applyEvent e s = .next t) : t.phase ≠ .exec := by
  cases e with
  | busRead off n => cases h; rw [busRead_phase, hp]; nofun
  | busWrite off n d => cases h; rw [(busWrite_sameCommand (by rw [hp]; nofun) off n d).phase, hp]; nofun
  | engine => exact engineStep_phase_ne_exec h
  | entropy a => exact runCommand_phase_ne_exec ((entropyArrives_waiting hp a).symm.trans h)
  | reset => cases h; nofun

theorem MachineInv.step_waiting {s t : State} (hs : MachineInv s) (hp : s.phase = .waitEnt)
    (h : step s = .next t) :
    SameCommand s t ∨ (s.env.head? = some .reset ∧ t = { State.reset with env := s.env.tail })
      ∨ ((∃ a, s.env.head? = some (.entropy a)) ∧ t.done = true) := by
  rw [step_eq_applyEvent] at h
  rcases (hs.with_env s.env.tail).applyEvent_waiting hp h with hsame | ⟨he, ht⟩ | ⟨⟨a, he⟩, hdone⟩
  · exact .inl ((with_env_sameCommand s _).trans hsame)
  · exact .inr (.inl ⟨(head?_env_eq_some_iff (by nofun)).2 he, ht⟩)
  · exact .inr (.inr ⟨⟨a, (head?_env_eq_some_iff (by nofun)).2 he⟩, hdone⟩)

/-- Settles O48: an event that is neither an answer nor reset leaves the waiting command as it was. -/
theorem waitEndsOnlyByAnswerOrReset : Obligations.WaitEndsOnlyByAnswerOrReset := by
  intro s t hs hp h
  rcases hs.step_waiting hp h with hsame | ⟨hreset, -⟩ | ⟨hanswer, -⟩
  · exact .inl ⟨hsame.phase.trans hp, hsame.dbuf, hsame.cmd, hsame.ops, hsame.lt⟩
  · exact .inr (.inl hreset)
  · exact .inr (.inr hanswer)

/-! ### A wait without an answer -/

/-- R371: the queue holds bus transactions and engine steps only. -/
def Silent (evs : List Event) : Prop := ∀ e ∈ evs, isTransaction e = true ∨ e = .engine

theorem MachineInv.step_silent {s t : State} (hs : MachineInv s) (hp : s.phase = .waitEnt) (hq : Silent s.env)
    (h : step s = .next t) : SameCommand s t := by
  rcases hs.step_waiting hp h with hsame | ⟨hreset, -⟩ | ⟨⟨a, hanswer⟩, -⟩
  · exact hsame
  · rcases hq _ (List.mem_of_mem_head? hreset) with hno | hno <;> exact nomatch hno
  · rcases hq _ (List.mem_of_mem_head? hanswer) with hno | hno <;> exact nomatch hno

/-- R371: any number of steps over such a queue leaves the waiting command as it was. -/
theorem MachineInv.stepN_silent {s : State} (hs : MachineInv s) (hp : s.phase = .waitEnt) (hq : Silent s.env)
    (n : Nat) : ∃ t, stepN n s = .next t ∧ SameCommand s t := by
  induction n generalizing s with
  | zero => exact ⟨s, rfl, .refl s⟩
  | succ n ih =>
    obtain ⟨u, hu⟩ := everyStepAnswersNext s
    have hsame := hs.step_silent hp hq hu
    have hq' : Silent u.env := fun e he => hq e (List.mem_of_mem_tail (step_env hu ▸ he))
    obtain ⟨t, ht, hsame'⟩ := ih (hs.of_sameCommand hsame) (hsame.phase.trans hp) hq'
    exact ⟨t, (stepN_succ_of_step hu n).trans ht, hsame.trans hsame'⟩

/-- R371: with nothing to come a waiting machine stands still. -/
theorem MachineInv.stepN_waiting_alone {s : State} (hs : MachineInv s) (hp : s.phase = .waitEnt) (henv : s.env = [])
    (n : Nat) : stepN n s = .next s := by
  have hstep : step s = .next s := (step_of_env_nil henv).trans (hs.engineStep_waiting hp)
  induction n with
  | zero => rfl
  | succ n ih => rw [stepN_succ_of_step hstep, ih]

/-- Settles O47, by induction on the number of steps. -/
theorem entropyWaitHasNoTimeout : Obligations.EntropyWaitHasNoTimeout := by
  intro s n hs hp hq
  obtain ⟨t, ht, hsame⟩ := hs.stepN_silent hp hq n
  exact ⟨⟨t, ht, hsame.phase.trans hp, hsame.dbuf, hsame.cmd, hsame.ops, hsame.lt, hs.of_sameCommand hsame⟩,
    fun henv => hs.stepN_waiting_alone hp henv n⟩

/-! ### The transitions of the engine -/

theorem step_idle {s t : State} (hp : s.phase = .idle) (h : step s = .next t) :
    t.phase = .idle
      ∨ (t.phase = .exec
        ∧ ∃ w, s.env.head? = some (.busWrite 0x010#13 .four w) ∧ t.lt = { cmd := w, ops := s.ops }) := by
  rw [step_eq_applyEvent] at h
  rcases applyEvent_idle (s := { s with env := s.env.tail }) hp h with hidle | ⟨hexec, w, he, hlt⟩
  · exact .inl hidle
  · exact .inr ⟨hexec, w, (head?_env_eq_some_iff (by nofun)).2 he, hlt⟩

theorem step_exec_to_idle {s t : State} (hp : s.phase = .exec) (h : step s = .next t) (ht : t.phase = .idle) :
    (s.env.head? = some .reset ∧ t = { State.reset with env := s.env.tail })
      ∨ ((s.env = [] ∨ s.env.head? = some .engine) ∧ engineStep { s with env := s.env.tail } = .next t
        ∧ t.done = true) := by
  rw [step_eq_applyEvent] at h
  rcases applyEvent_exec (s := { s with env := s.env.tail }) hp h with
    hexec | ⟨he, hreset⟩ | ⟨he, hengine, -, hdone⟩ | ⟨-, hwait, -⟩
  · exact nomatch ht.symm.trans hexec
  · exact .inl ⟨(head?_env_eq_some_iff (by nofun)).2 he, hreset⟩
  · exact .inr ⟨nextEvent_eq_engine_iff.1 he, hengine, hdone⟩
  · exact nomatch ht.symm.trans hwait

theorem step_exec_to_waitEnt {s t : State} (hp : s.phase = .exec) (h : step s = .next t) (ht : t.phase = .waitEnt) :
    (decode s.lt.cmd = .ok .createKey ∨ decode s.lt.cmd = .ok .encrypt)
      ∧ (s.env = [] ∨ s.env.head? = some .engine) := by
  rw [step_eq_applyEvent] at h
  rcases applyEvent_exec (s := { s with env := s.env.tail }) hp h with
    hexec | ⟨-, rfl⟩ | ⟨-, -, hidle, -⟩ | ⟨he, -, hdec⟩
  · exact nomatch ht.symm.trans hexec
  · exact nomatch ht
  · exact nomatch ht.symm.trans hidle
  · exact ⟨hdec, nextEvent_eq_engine_iff.1 he⟩

theorem MachineInv.step_waitEnt_to_idle {s t : State} (hs : MachineInv s) (hp : s.phase = .waitEnt)
    (h : step s = .next t) (ht : t.phase = .idle) :
    (s.env.head? = some .reset ∧ t = { State.reset with env := s.env.tail })
      ∨ (∃ a, s.env.head? = some (.entropy a)) ∧ t.done = true := by
  rcases hs.step_waiting hp h with hsame | hends
  · exact nomatch ht.symm.trans (hsame.phase.trans hp)
  · exact hends

theorem step_waitEnt_ne_exec {s t : State} (hp : s.phase = .waitEnt) (h : step s = .next t) : t.phase ≠ .exec := by
  rw [step_eq_applyEvent] at h
  exact applyEvent_waiting_ne_exec (s := { s with env := s.env.tail }) hp h

/-- Settles O9: the ways on from each of the three phases. -/
theorem phaseTransitions : Obligations.PhaseTransitions := fun _ _ h =>
  ⟨fun hp => step_idle hp h, fun hp => step_exec_to_idle hp h, fun hp => step_exec_to_waitEnt hp h,
    fun hs hp => hs.step_waitEnt_to_idle hp h, fun hp => step_waitEnt_ne_exec hp h⟩

end Sys2Proof.Machine
end

section
/-! SUPPORT. The interrupt and the four causes that deassert it (10_state.md R38; 70_reset_and_hazards.md R366, R369). -/

namespace Sys2Proof.Machine

/-- R369: the causes that deassert `IRQ`. -/
def ClearsInterrupt (e : Event) : Prop :=
  (∃ w, e = .busWrite 0x00C#13 .four w ∧ w.getLsbD 1 = true)
    ∨ (∃ w, e = .busWrite 0x010#13 .four w)
    ∨ (∃ w, e = .busWrite 0x008#13 .four w ∧ w.getLsbD 0 = false)
    ∨ e = .reset

/-- R366: `DONE` is 0 from issue to completion, so `IRQ` is asserted only while idle. -/
theorem MachineInv.idle_of_irq {s : State} (hs : MachineInv s) (hirq : irq s = true) : s.phase = .idle := by
  by_contra hbusy
  obtain ⟨hdone, -⟩ := hs.running hbusy
  rw [irq, hdone, Bool.and_false] at hirq
  exact nomatch hirq

section
variable {s t : State} {e : Event} (hp : s.phase = .idle) (hirq : irq s = true) (h : applyEvent e s = .next t)
include hp h

theorem irq_after_cause (he : ClearsInterrupt e) : irq t = false := by
  rcases he with ⟨w, rfl, hbit⟩ | ⟨w, rfl⟩ | ⟨w, rfl, hbit⟩ | rfl <;> cases h
  · rw [busWrite_status, irq, hbit, Bool.not_true, Bool.and_false, Bool.and_false]
  · rw [busWrite_cmd_idle hp, irq, issue_done, Bool.and_false]
  · rw [busWrite_ctrl, irq, hbit, Bool.false_and]
  · rfl

include hirq

/-- R369: an event that is none of the causes leaves `IE` and `DONE` at 1. -/
theorem cause_of_irq_clear (hclear : irq t = false) : ClearsInterrupt e := by
  obtain ⟨hie, hdone⟩ := Bool.and_eq_true_iff.1 hirq
  cases e with
  | busRead off n => cases h; exact nomatch hirq.symm.trans hclear
  | busWrite off n d =>
    cases h
    rcases busWrite_cases s off n d with ⟨rfl, rfl⟩ | ⟨rfl, rfl⟩ | ⟨rfl, rfl, -⟩ | ⟨ops, werr, dbuf, resp, hw⟩
    · rw [busWrite_ctrl, irq, hdone, Bool.and_true] at hclear
      exact .inr (.inr (.inl ⟨d, rfl, hclear⟩))
    · rw [busWrite_status, irq, hie, hdone, Bool.true_and, Bool.true_and, Bool.not_eq_false'] at hclear
      exact .inl ⟨d, rfl, hclear⟩
    · exact .inr (.inl ⟨d, rfl⟩)
    · rw [hw] at hclear
      exact nomatch hirq.symm.trans hclear
  | engine => cases (engineStep_idle hp).symm.trans h; exact nomatch hirq.symm.trans hclear
  | entropy a =>
    cases (entropyArrives_unasked (by rw [hp]; nofun) a).symm.trans h
    exact nomatch hirq.symm.trans hclear
  | reset => exact .inr (.inr (.inr rfl))

end

/-- R369: the causes, as the head of the queue. -/
theorem clearsInterrupt_nextEvent_iff (s : State) :
    ClearsInterrupt (nextEvent s) ↔
      (∃ w, s.env.head? = some (.busWrite 0x00C#13 .four w) ∧ w.getLsbD 1 = true)
        ∨ (∃ w, s.env.head? = some (.busWrite 0x010#13 .four w))
        ∨ (∃ w, s.env.head? = some (.busWrite 0x008#13 .four w) ∧ w.getLsbD 0 = false)
        ∨ s.env.head? = some .reset := by
  simp [ClearsInterrupt, head?_env_eq_some_iff]

/-- Settles O21: the machine is idle, and there each cause clears `IRQ` and no other event does. -/
theorem interruptClearedOnlyByItsCauses : Obligations.InterruptClearedOnlyByItsCauses := by
  refine ⟨fun _ => rfl, fun s t hs hirq h => ?_⟩
  have hp : ({ s with env := s.env.tail } : State).phase = .idle := hs.idle_of_irq hirq
  rw [step_eq_applyEvent] at h
  rw [← clearsInterrupt_nextEvent_iff]
  exact ⟨cause_of_irq_clear hp hirq h, irq_after_cause hp h⟩

end Sys2Proof.Machine
end

section
/-! SUPPORT. ZEROIZE, and the completion codes that each command can give (47_zeroize.md R310; 60_exceptions.md R322). -/

namespace Sys2Proof.Machine

/-- Settles O37: no operand is read, and a byte of the cleared buffer is one that no cell lists. -/
theorem zeroizeClearsEveryByte : Obligations.ZeroizeClearsEveryByte :=
  ⟨decode_encode .zeroize, fun _ => ⟨_, rfl, fun _ => rfl, rfl⟩⟩

/-- R322: the table of the codes with which a command can fail. -/
def MayFailWith (i : Instr) : Code → Prop
  | .ok => False
  | .illegalCmd => False
  | .range => i ≠ .zeroize
  | .inputLength =>
    i ∈ [.deriveSubkeys, .wrapKey, .unwrapKey, .encrypt, .decrypt false, .decrypt true, .bcrypt, .blockEnc, .blockDec]
  | .invalidSalt => i = .derivePassphraseKey ∨ i = .bcrypt
  | .entropyUnavailable => i = .createKey ∨ i = .encrypt
  | .decryptFail => i = .decrypt false ∨ i = .decrypt true

theorem eq_decrypt_of_flag (v : Bool) : Instr.decrypt v = .decrypt false ∨ Instr.decrypt v = .decrypt true := by
  cases v
  · exact .inl rfl
  · exact .inr rfl

/-- R94: the codes of the length checks. -/
theorem mayFailWith_of_lengthChecks {i : Instr} {a b : Bytes} {c : Code} (h : lengthChecks i a b = some c) :
    MayFailWith i c := by
  cases i with
  | createKey | sha256 | hmac | zeroize => exact nomatch h
  | derivePassphraseKey =>
    simp only [lengthChecks] at h
    split_ifs at h
    cases h
    exact .inl rfl
  | deriveSubkeys | wrapKey | unwrapKey | encrypt | blockEnc | blockDec =>
    simp only [lengthChecks] at h
    split_ifs at h
    cases h
    simp [MayFailWith]
  | bcrypt =>
    simp only [lengthChecks] at h
    split_ifs at h
    · cases h
      simp [MayFailWith]
    · cases h
      exact .inr rfl
  | decrypt v =>
    rcases lengthChecks_decrypt_code h with rfl | rfl
    · rcases eq_decrypt_of_flag v with hv | hv <;> simp [MayFailWith, hv]
    · exact eq_decrypt_of_flag v

/-- R97 steps 2 to 4: the codes of the operand checks. -/
theorem mayFailWith_of_operands {i : Instr} {s : State} {c : Code} (hz : i ≠ .zeroize)
    (h : operands i s = .error (.fail c)) : MayFailWith i c := by
  by_cases h0 : usesSrc0 i = true → Source0Inside s
  · by_cases h1 : usesSrc1 i = true → Source1Inside s
    · cases hlen : lengthChecks i (usedSource0 i s) (usedSource1 i s) with
      | some c' =>
        cases (operands_wrong_length h0 h1 hlen).symm.trans h
        exact mayFailWith_of_lengthChecks hlen
      | none =>
        by_cases hroom : DestinationFits s (maxOut i (usedSource1 i s).length)
        · exact nomatch (operands_pass h0 h1 hlen hroom).symm.trans h
        · cases (operands_no_room (usesDst_of_ne_zeroize hz) h0 h1 hlen hroom).symm.trans h
          exact hz
    · obtain ⟨hu, hout⟩ := Classical.not_imp.1 h1
      cases (operands_src1_outside h0 hu hout).symm.trans h
      exact hz
  · obtain ⟨hu, hout⟩ := Classical.not_imp.1 h0
    cases (operands_src0_outside hu hout).symm.trans h
    exact hz

/-- R240: the source's refusal is the one failure of the entropy request. -/
theorem getEntropy16_code {s : State} {c : Code} (h : getEntropy16 s = .error (.fail c)) : c = .entropyUnavailable := by
  rcases getEntropy16_cases s with ⟨d, -, -, hok⟩ | ⟨-, -, hfail⟩ | ⟨-, hwait⟩
  · exact nomatch hok.symm.trans h
  · cases hfail.symm.trans h
    rfl
  · exact nomatch hwait.symm.trans h

/-- R288: the body of DECRYPT has one code. -/
theorem opened_code {sk a : Bytes} {c : Code} (h : opened sk a = .error (.fail c)) : c = .decryptFail := by
  rw [opened_eq] at h
  split_ifs at h
  · cases h; rfl
  · cases h; rfl
  · cases hpad : unpad (cbcDec (cipherSubkey sk) (slice a 1 17) (slice a 17 (a.length - 32))) with
    | none => rw [hpad] at h; cases h; rfl
    | some p => rw [hpad] at h; exact nomatch h

/-- R97 step 5: the codes of the bodies. -/
theorem mayFailWith_of_bodyOf {i : Instr} {s : State} {a b : Bytes} {c : Code}
    (h : bodyOf i s a b = .error (.fail c)) : MayFailWith i c := by
  cases i with
  | createKey =>
    cases getEntropy16_code h
    exact .inl rfl
  | encrypt =>
    rw [entropyCommand_encrypt.body] at h
    cases hent : getEntropy16 s with
    | ok d => rw [hent] at h; exact nomatch h
    | error stop =>
      rw [hent] at h
      cases h
      cases getEntropy16_code hent
      exact .inr rfl
  | decrypt v =>
    cases opened_code h
    exact eq_decrypt_of_flag v
  | _ => exact nomatch h

/-- R324: a command that completes has the code `OK` or one that the table gives it. -/
theorem exec_completion_code {i : Instr} {s t : State} (h : exec i s = .next t) (hp : t.phase = .idle) :
    t.err = .ok ∨ MayFailWith i t.err := by
  by_cases hz : i = .zeroize
  · subst hz
    cases h
    exact .inl rfl
  rcases operands_cases i s with ⟨c, hfail⟩ | ⟨-, -, -, -, hpass⟩
  · cases (exec_of_fail hz hfail).symm.trans h
    exact .inr (mayFailWith_of_operands hz hfail)
  · rcases bodyOf_cases hpass with ⟨out, hout, -⟩ | ⟨c, hfail⟩ | ⟨-, -, hwait⟩
    · cases (exec_of_output hz hpass hout).symm.trans h
      exact .inl rfl
    · cases (exec_of_body_fail hz hpass hfail).symm.trans h
      exact .inr (mayFailWith_of_bodyOf hfail)
    · cases (exec_of_wait hz hpass hwait).symm.trans h
      exact nomatch hp

/-- Settles O41: the codes' numbers, and each clause by the table's line for its code. -/
theorem completionCodesByCommand : Obligations.CompletionCodesByCommand := by
  refine ⟨⟨rfl, rfl, rfl, rfl, rfl, rfl, rfl⟩, fun i s t h hp => ?_⟩
  rcases exec_completion_code h hp with hok | hcode
  · rw [hok]
    exact ⟨nofun, nofun, nofun, nofun, nofun, nofun⟩
  · have htable : ∀ c, t.err = c → MayFailWith i c := fun _ herr => herr ▸ hcode
    exact ⟨htable .illegalCmd, htable .range, htable .inputLength, htable .invalidSalt, htable .entropyUnavailable,
      htable .decryptFail⟩

end Sys2Proof.Machine
end
